-- ==== Sys2Proof/Word.lean ====
section
/-! DEFINITION. The words of the framing core: bytes, register widths and the framing constants
(spec/00_scope.md R8, R9, R10). -/

namespace Sys2Proof

/-- A byte, 8 bits (R10). -/
abbrev Byte := BitVec 8

/-- A size register, SIZE_W = 16 bits (R8, decision D10). -/
abbrev Size := BitVec 16

/-- A statistics counter, STAT_W = 32 bits (R8, decision D9). -/
abbrev Stat := BitVec 32

/-- The 16-bit CRC value V and its working register (spec/40_crc.md R110). -/
abbrev Crc := BitVec 16

/-- A link identifier: a numeric tag, only ever compared (R16). Its width LINKID_W is an open
parameter (R8), so the bound `< 2 ^ LINKID_W` is a check on operands and an invariant of the state. -/
abbrev LinkId := Nat

/-- DELIM, the delimiter byte (R9). -/
abbrev delim : Byte := 0x7E#8

/-- ESC, the escape byte (R9). -/
abbrev esc : Byte := 0x7D#8

/-- SUB_DELIM, the encoded substitute of the delimiter (R9). -/
abbrev subDelim : Byte := 0x5E#8

/-- SUB_ESC, the encoded substitute of the escape (R9). -/
abbrev subEsc : Byte := 0x5D#8

/-- A reserved byte: the delimiter or the escape (spec/30_encoding.md R81). -/
def reserved (b : Byte) : Bool := b == delim || b == esc

end Sys2Proof
end

