-- ==== Sys2Proof/Machine/Crc.lean ====
section
/-! DEFINITION. The CRC-16/X-25 generator (spec/40_crc.md R110 to R112). -/

namespace Sys2Proof.Machine

/-- One bit-step of the working register: shift right, and XOR the reflected polynomial if the bit
shifted out is 1 (R111). -/
def crcBit (r : Crc) : Crc :=
  if r &&& 1#16 = 1#16 then (r >>> 1) ^^^ 0x8408#16 else r >>> 1

/-- `n` bit-steps. -/
def crcBits : Nat → Crc → Crc
  | 0, r => r
  | n + 1, r => crcBits n (crcBit r)

/-- One byte: XORed into the low 8 bits, then 8 bit-steps (R111). -/
def crcByte (r : Crc) (b : Byte) : Crc := crcBits 8 (r ^^^ b.setWidth 16)

/-- The working register after a byte sequence, from `r`. -/
def crcFrom (r : Crc) (d : List Byte) : Crc := d.foldl crcByte r

/-- V: from 0xFFFF, with the final XOR (R111). -/
def crc16 (d : List Byte) : Crc := crcFrom 0xFFFF#16 d ^^^ 0xFFFF#16

/-- A 16-bit value as two bytes, low byte first (spec/20_memory.md R63). -/
def lowHigh (v : Crc) : List Byte := [v.setWidth 8, (v >>> 8).setWidth 8]

/-- The 16-bit value of two bytes, low byte first (R112). -/
def fromLowHigh (lo hi : Byte) : Crc := lo.setWidth 16 ||| (hi.setWidth 16 <<< 8)

/-- V as it is stored and sent, low byte first (R112). -/
def crcBytes (d : List Byte) : List Byte := lowHigh (crc16 d)

end Sys2Proof.Machine
end

