-- ==== Sys2Proof/Config.lean ====
section
/-! DEFINITION. What an implementation fixes and the spec leaves open, and the free values: the
build parameters BUF_CAP and LINKID_W (spec/00_scope.md R8, spec/93 U12, U14), and the link
collaborator's answers past those listed in the state (R7, spec/93 U10), which all instances draw
from (assumption log 15, DESIGN CHOICE, unsafe). No constant here has a body, so no proof can see
its value. -/

namespace Sys2Proof

/-- Free: fixes BUF_CAP within its legal range (R8). -/
opaque Config.bufCapFree : Nat

/-- Free: fixes LINKID_W within its legal range (R8). -/
opaque Config.linkIdWFree : Nat

/-- BUF_CAP: at least 3, at most 2^SIZE_W - 1 (R8). -/
def Config.bufCap : Nat := min Config.bufCapFree 65532 + 3

/-- LINKID_W: at least 1 (R8). -/
def Config.linkIdW : Nat := Config.linkIdWFree + 1

/-- Free: the answer of the n-th drawn readiness query (R13, spec/93 U10). -/
opaque Config.freeReady : Nat → Bool

/-- Free: the byte of the n-th drawn STREAM unit (R13, R46). -/
opaque Config.freeByte : Nat → Byte

/-- Free: the link identifier of the n-th drawn MESSAGE unit, before its bound (R13, R46). -/
opaque Config.freeLinkId : Nat → Nat

/-- Free: the bytes of the n-th drawn MESSAGE unit, before their bound (R13, R46). -/
opaque Config.freeBytes : Nat → List Byte

end Sys2Proof
end

