-- ==== Sys2Proof/Syntax.lean ====
section
/-! DEFINITION. The commands of the host port and the codec operations of the framing core: one
constructor of `Instr` per row of spec/opcode_table.json. -/

namespace Sys2Proof

/-- LINK_KIND: the two link variants (spec/00_scope.md R3, spec/10_state.md R23). -/
inductive LinkKind where
  | stream
  | message
  deriving DecidableEq, Repr

/-- A framing state (spec/00_scope.md R15, spec/10_state.md R38). -/
inductive Framing where
  | awaitingDelimiter
  | inFrame
  | inEscape
  deriving DecidableEq, Repr

/-- The class of a received byte: the third column of the table of spec/30_encoding.md R87. -/
inductive RxClass where
  | start
  | ignore
  | escape
  | frameEnd
  | overflow
  | data
  | substDelim
  | substEsc
  | full
  | badEscape
  deriving DecidableEq, Repr

/-- The case of an ENC_STEP, in the order of spec/41_encoder.md R130. -/
inductive TxCase where
  | close
  | opening
  | escape
  | literal
  | substitute
  deriving DecidableEq, Repr

/-- A command as it stands on the host port: the opcode and the operand fields beside it
(spec/30_encoding.md R94, R96). The opcode fixes which fields are looked at; the others are not
present, and are ignored. -/
structure Command where
  op : Byte
  n : Size := 0
  kind : BitVec 1 := 0
  chunk : Size := 0
  rxLink : Nat := 0
  linkId : Nat := 0
  payload : List Byte := []
  data : List Byte := []
  reg : Byte := 0
  deriving DecidableEq, Repr

/-- The rows of spec/opcode_table.json. The first seven are the host's commands
(spec/30_encoding.md R95, R98); the ten `rx` rows are the byte classes of DEC_BYTE
(spec/42_decoder.md R150), each with the byte where its class admits several; the five `tx` rows
are the cases of ENC_STEP (spec/41_encoder.md R130). -/
inductive Instr where
  | init (n : Size) (kind : LinkKind) (chunk : Size) (rxLink : LinkId)
  | teardown
  | send (linkId : LinkId) (payload : List Byte)
  | task
  | crc16 (data : List Byte)
  | readReg (reg : Byte)
  | illegalCmd (op : Byte)
  | rxStart
  | rxIgnore (x : Byte)
  | rxEscape
  | rxEnd
  | rxOverflow (x : Byte)
  | rxData (x : Byte)
  | rxSubDelim
  | rxSubEsc
  | rxFull (x : Byte)
  | rxBadEscape (x : Byte)
  | txClose
  | txOpen
  | txEscape
  | txLiteral
  | txSubstitute
  deriving DecidableEq, Repr

/-- The decoder's operation for a byte of a class. -/
def Instr.ofRx (x : Byte) : RxClass → Instr
  | .start => .rxStart
  | .ignore => .rxIgnore x
  | .escape => .rxEscape
  | .frameEnd => .rxEnd
  | .overflow => .rxOverflow x
  | .data => .rxData x
  | .substDelim => .rxSubDelim
  | .substEsc => .rxSubEsc
  | .full => .rxFull x
  | .badEscape => .rxBadEscape x

/-- The encoder's operation for a case. -/
def Instr.ofTx : TxCase → Instr
  | .close => .txClose
  | .opening => .txOpen
  | .escape => .txEscape
  | .literal => .txLiteral
  | .substitute => .txSubstitute

/-- The host's commands: the rows of format CMD. -/
def Instr.isCommand : Instr → Bool
  | .init _ _ _ _ | .teardown | .send _ _ | .task | .crc16 _ | .readReg _ | .illegalCmd _ => true
  | .rxStart | .rxIgnore _ | .rxEscape | .rxEnd | .rxOverflow _ | .rxData _ | .rxSubDelim
  | .rxSubEsc | .rxFull _ | .rxBadEscape _ => false
  | .txClose | .txOpen | .txEscape | .txLiteral | .txSubstitute => false

end Sys2Proof
end

