-- ==== Sys2Proof/WellFormed.lean ====
section
/-! DEFINITION. Which instructions are well formed: every operand fits the field the spec gives it
(spec/30_encoding.md R96), a reserved opcode is a reserved one (R98), and the byte of a codec row
is one its class admits (R87). -/

namespace Sys2Proof

/-- Why an instruction is rejected. -/
inductive Reject where
  /-- SEND: `payload` is longer than 2^SIZE_W - 1 bytes (R96). -/
  | payloadTooLong
  /-- INIT: `rx_link` is wider than LINKID_W bits (R96). -/
  | rxLinkTooWide
  /-- SEND: `link_id` is wider than LINKID_W bits (R96). -/
  | linkIdTooWide
  /-- ILLEGAL_CMD with one of the six assigned opcodes (R95, R98). -/
  | opcodeAssigned
  /-- A decoder row with a byte its class does not admit (R87). -/
  | byteOutsideClass
  deriving DecidableEq, Repr

/-- The six assigned opcodes, 0x01 to 0x06 (R95). -/
def assignedOpcode (op : Byte) : Bool := decide (1 ≤ op.toNat ∧ op.toNat ≤ 6)

/-- An identifier of `w` bits. Zero is one at every width, and is tested first so that it is seen
to fit without a value for the open width. -/
def fitsWidth (w id : Nat) : Bool := id == 0 || decide (id < 2 ^ w)

/-- The first check an instruction fails, if any; `w` is LINKID_W. -/
def Instr.reject (w : Nat) : Instr → Option Reject
  | .init _ _ _ rxLink => if fitsWidth w rxLink then none else some .rxLinkTooWide
  | .send linkId payload =>
      if fitsWidth w linkId then
        if payload.length < 2 ^ 16 then none else some .payloadTooLong
      else some .linkIdTooWide
  | .illegalCmd op => if assignedOpcode op then some .opcodeAssigned else none
  | .rxIgnore x => if x = delim then some .byteOutsideClass else none
  | .rxOverflow x | .rxData x => if reserved x then some .byteOutsideClass else none
  | .rxFull x => if x = subDelim ∨ x = subEsc then none else some .byteOutsideClass
  | .rxBadEscape x => if x = subDelim ∨ x = subEsc then some .byteOutsideClass else none
  | .teardown | .task | .crc16 _ | .readReg _ => none
  | .rxStart | .rxEscape | .rxEnd | .rxSubDelim | .rxSubEsc => none
  | .txClose | .txOpen | .txEscape | .txLiteral | .txSubstitute => none

/-- No check fails. -/
def Instr.wellFormed (w : Nat) (i : Instr) : Bool := (i.reject w).isNone

end Sys2Proof
end

