-- ==== Sys2Proof/Decode.lean ====
section
/-! DEFINITION. Decoding and encoding: a command by its opcode (spec/30_encoding.md R94 to R98), a
received byte by the decoder's state (R87), an ENC_STEP by the encoder's state (spec/41_encoder.md
R130), and the inverse of all three. -/

namespace Sys2Proof

/-! ## Commands (R94, R95, R96) -/

/-- LINK_KIND from the `kind` operand: 0 STREAM, 1 MESSAGE (R96). -/
def linkKindOf (b : BitVec 1) : LinkKind := if b = 0#1 then .stream else .message

/-- The `kind` operand of a link variant (R96). -/
def linkKindBit : LinkKind → BitVec 1
  | .stream => 0#1
  | .message => 1#1

/-- The command an opcode names, with the operand fields R96 gives it; every other opcode is
reserved (R95, R98). -/
def Command.instr (c : Command) : Instr :=
  if c.op = 0x01#8 then .init c.n (linkKindOf c.kind) c.chunk c.rxLink
  else if c.op = 0x02#8 then .teardown
  else if c.op = 0x03#8 then .send c.linkId c.payload
  else if c.op = 0x04#8 then .task
  else if c.op = 0x05#8 then .crc16 c.data
  else if c.op = 0x06#8 then .readReg c.reg
  else .illegalCmd c.op

/-- The command with only the operand fields its opcode has (R94, R96). -/
def Command.present (c : Command) : Command :=
  if c.op = 0x01#8 then
    { op := c.op, n := c.n, kind := c.kind, chunk := c.chunk, rxLink := c.rxLink }
  else if c.op = 0x03#8 then { op := c.op, linkId := c.linkId, payload := c.payload }
  else if c.op = 0x05#8 then { op := c.op, data := c.data }
  else if c.op = 0x06#8 then { op := c.op, reg := c.reg }
  else { op := c.op }

/-- Decode a command: total, rejecting by name an operand that does not fit its field; `w` is
LINKID_W. -/
def decode (w : Nat) (c : Command) : Except Reject Instr :=
  match c.instr.reject w with
  | none => .ok c.instr
  | some r => .error r

/-! ## Received bytes (R87) -/

/-- The class of a received byte `x` in decoder state `st`; `full` says RX_SIZE = N + 2. The rows
of each state are tried in the table's order (R87). -/
def classify (st : Framing) (full : Bool) (x : Byte) : RxClass :=
  match st with
  | .awaitingDelimiter => if x = delim then .start else .ignore
  | .inFrame =>
      if x = esc then .escape
      else if x = delim then .frameEnd
      else if full then .overflow
      else .data
  | .inEscape =>
      if x = subDelim then (if full then .full else .substDelim)
      else if x = subEsc then (if full then .full else .substEsc)
      else .badEscape

/-! ## Encoder cases (spec/41_encoder.md R130) -/

/-- The case of an ENC_STEP: `atEnd` says SENT_SIZE = TX_SIZE, `b` is TXBUF[SENT_SIZE]. Only the
IN_FRAME cases look at `b`. -/
def txCaseOf (st : Framing) (atEnd : Bool) (b : Byte) : TxCase :=
  if atEnd then .close
  else match st with
    | .awaitingDelimiter => .opening
    | .inFrame => if reserved b then .escape else .literal
    | .inEscape => .substitute

/-- The encoded substitute of a reserved byte; R130's `else` branch is the escape (R81). -/
def substituteOf (b : Byte) : Byte := if b = delim then subDelim else subEsc

/-- The byte an ENC_STEP returns in a case, from the byte at SENT_SIZE where the case reads it
(R130). -/
def txOutput (c : TxCase) (b : Byte) : Byte :=
  match c with
  | .close => delim
  | .opening => delim
  | .escape => esc
  | .literal => b
  | .substitute => substituteOf b

/-! ## All rows of the table, and the encoder -/

/-- Where a row of spec/opcode_table.json is read from: its format and what selects it. -/
inductive Encoding where
  /-- Format CMD: a command on the host port. -/
  | command (c : Command)
  /-- Formats RX_AW, RX_IF and RX_IE: a received byte in a decoder state, and whether RX_SIZE = N + 2. -/
  | received (st : Framing) (full : Bool) (x : Byte)
  /-- Format TX_STEP: the encoder's state, whether SENT_SIZE = TX_SIZE, and TXBUF[SENT_SIZE]. -/
  | encStep (st : Framing) (atEnd : Bool) (b : Byte)
  deriving DecidableEq, Repr

/-- Decode any row of the table. -/
def Encoding.decode (w : Nat) : Encoding → Except Reject Instr
  | .command c => Sys2Proof.decode w c
  | .received st full x => .ok (.ofRx x (classify st full x))
  | .encStep st atEnd b => .ok (.ofTx (txCaseOf st atEnd b))

/-- The encoding of an instruction: a command with only its own operand fields, or a situation of
the codec that selects the row. -/
def encode : Instr → Encoding
  | .init n kind chunk rxLink =>
      .command { op := 0x01#8, n := n, kind := linkKindBit kind, chunk := chunk, rxLink := rxLink }
  | .teardown => .command { op := 0x02#8 }
  | .send linkId payload => .command { op := 0x03#8, linkId := linkId, payload := payload }
  | .task => .command { op := 0x04#8 }
  | .crc16 data => .command { op := 0x05#8, data := data }
  | .readReg reg => .command { op := 0x06#8, reg := reg }
  | .illegalCmd op => .command { op := op }
  | .rxStart => .received .awaitingDelimiter false delim
  | .rxIgnore x => .received .awaitingDelimiter false x
  | .rxEscape => .received .inFrame false esc
  | .rxEnd => .received .inFrame false delim
  | .rxOverflow x => .received .inFrame true x
  | .rxData x => .received .inFrame false x
  | .rxSubDelim => .received .inEscape false subDelim
  | .rxSubEsc => .received .inEscape false subEsc
  | .rxFull x => .received .inEscape true x
  | .rxBadEscape x => .received .inEscape false x
  | .txClose => .encStep .inFrame true 0#8
  | .txOpen => .encStep .awaitingDelimiter false 0#8
  | .txEscape => .encStep .inFrame false delim
  | .txLiteral => .encStep .inFrame false 0#8
  | .txSubstitute => .encStep .inEscape false delim

/-- The command whose opcode is `w`, with every operand zero or empty. -/
def tableCommand (w : Nat) : Command := { op := BitVec.ofNat 8 w }

/-- The instruction the command decoder reads from the opcode `w`. A command is one 8-bit opcode
(R94), so a word of more than 8 bits is no command; operands of zeros always fit, so LINKID_W does
not matter here. -/
def decodeTableWord (_nbits w : Nat) : Option Instr :=
  if w < 256 then (decode 1 (tableCommand w)).toOption else none

end Sys2Proof
end

