-- ==== Sys2Proof/Machine/State.lean ====
section
/-! DEFINITION. The state of one instance of the framing core (spec/10_state.md R20), the records
of its ports, the reasons a step can stop, and the state after power-on (spec/70 R270). -/

namespace Sys2Proof.Machine

open Sys2Proof

/-- One link unit: a byte on a STREAM link, an identifier with bytes on a MESSAGE link
(spec/30_encoding.md R89, R90). -/
inductive LinkUnit where
  | byte (b : Byte)
  | message (id : LinkId) (bytes : List Byte)
  deriving DecidableEq, Repr

/-- A call of a collaborator primitive or a delivery (spec/00_scope.md R13). -/
inductive Event where
  /-- tx_ready() and its answer (R43). -/
  | txReady (answer : Bool)
  /-- tx_send(u) (R45). -/
  | txSend (u : LinkUnit)
  /-- rx_ready() and its answer (R44). -/
  | rxReady (answer : Bool)
  /-- rx_recv() and the unit it gave (R46). -/
  | rxRecv (u : LinkUnit)
  /-- deliver(p) (R47). -/
  | deliver (p : List Byte)
  deriving DecidableEq, Repr

/-- The status of a command (spec/60_exceptions.md R241). -/
inductive Status where
  | ok
  | txOverflow
  | notLive
  | badConfig
  | illegalCmd
  | badReg
  deriving DecidableEq, Repr

/-- What a command answers: (status, value) (spec/30_encoding.md R97). -/
structure Reply where
  status : Status
  value : Nat
  deriving DecidableEq, Repr

/-- The two buffers (spec/20_memory.md R60). -/
inductive Buffer where
  | tx
  | rx
  deriving DecidableEq, Repr

/-- A buffer's contents: the written bytes by index, in strictly rising order. An index that is
not listed has not been written (spec/70 R273). -/
abbrev Memory := List Host.Cell

/-- The build parameters (spec/00_scope.md R8, kind B). They are fixed for the machine; the state
carries them so that a statement about every state is about every BUF_CAP and LINKID_W. -/
structure Build where
  /-- BUF_CAP. -/
  bufCap : Nat
  /-- LINKID_W. -/
  linkIdW : Nat
  deriving DecidableEq, Repr

/-- Why the machine stops with a fault. Every one is safe: the model stops where the spec marks a
state that no run it allows can reach (spec/00_scope.md R14, spec/93). -/
inductive Fault where
  /-- An ENC_STEP with TX_SIZE = 0 (spec/41_encoder.md R130, ENC_STEP_IDLE). Raised by the `tx`
  rows. Safe. -/
  | encStepIdle
  /-- A codec row run where its condition does not hold (spec/30_encoding.md R87, R130). Raised by
  the `rx` and `tx` rows run by themselves, never inside a TASK. Safe. -/
  | rowNotSelected
  /-- A read of a buffer byte that nothing has written (spec/10_state.md R57, spec/70 R273).
  Raised by ENC_STEP and FINALIZE in states no run reaches. Safe. -/
  | unwrittenByte (b : Buffer) (index : Nat)
  /-- An access at or above BUF_CAP, where a buffer has no byte (spec/20_memory.md R60). Raised by
  SEND, ENC_STEP, DEC_BYTE and FINALIZE in states no run reaches. Safe. -/
  | outsideBuffer (b : Buffer) (index : Nat)
  deriving DecidableEq, Repr

/-- Why the machine gives a step no meaning. -/
inductive Refusal where
  /-- An instruction whose arm of `exec` is not written yet. Raised by `exec` alone. Safe. -/
  | notModelled (mnemonic : String)
  /-- A command on the port whose operand does not fit its field (spec/30_encoding.md R96). Raised
  by `step`. Safe: no host can present it. -/
  | malformedCommand (r : Reject)
  /-- A received unit outside the link collaborator's contract: longer than CHUNK, an identifier
  wider than LINKID_W, or a unit of the other link variant (spec/60_exceptions.md R252, decision
  D40, spec/93 U9). Raised by TASK. Safe: the spec refuses the step. -/
  | unitOutsideContract (u : LinkUnit)
  deriving DecidableEq, Repr

/-- One instance. The fields from `live` to `rxBuf` are the spec's state (R20); `build` holds the
build parameters; the fields from `encOut` on are the model's own, for the interfaces. -/
structure State where
  /-- BUF_CAP and LINKID_W. -/
  build : Build
  /-- LIVE (R21). -/
  live : Bool
  /-- CFG_N (R22). -/
  cfgN : Size
  /-- CFG_KIND (R23). -/
  cfgKind : LinkKind
  /-- CFG_CHUNK (R24). -/
  cfgChunk : Size
  /-- RX_LINK_ID (R34). -/
  rxLinkId : LinkId
  /-- TX_STATE (R25). -/
  txState : Framing
  /-- RX_STATE (R26). -/
  rxState : Framing
  /-- TX_SIZE (R27). -/
  txSize : Size
  /-- SENT_SIZE (R28). -/
  sentSize : Size
  /-- RX_SIZE (R29). -/
  rxSize : Size
  /-- TX_LINK_ID (R33). -/
  txLinkId : LinkId
  /-- STAT_SOF (R30). -/
  statSof : Stat
  /-- STAT_TX_FRAMES (R31). -/
  statTxFrames : Stat
  /-- STAT_RX_FRAMES (R32). -/
  statRxFrames : Stat
  /-- TXBUF (R35). -/
  txBuf : Memory
  /-- RXBUF (R36). -/
  rxBuf : Memory
  /-- The bytes the ENC_STEPs of the current TASK have returned: `c` of spec/44_scheduler.md R190. -/
  encOut : List Byte
  /-- The commands the host presents, oldest first (R42). -/
  hostPort : List Command
  /-- The answers given to the host, oldest first (R97). -/
  replies : List Reply
  /-- The answers tx_ready() will give, oldest first (R43). -/
  txReadyIn : List Bool
  /-- The answers rx_ready() will give, oldest first (R44). -/
  rxReadyIn : List Bool
  /-- The units rx_recv() will give, oldest first (R46). -/
  rxIn : List LinkUnit
  /-- How many answers were drawn as free values past the end of those lists (spec/93 U10). -/
  draws : Nat
  /-- The calls made on the link and delivery ports, oldest first (R13, spec/70 R285). -/
  events : List Event
  deriving DecidableEq, Repr

/-- Power-on (spec/70 R270): every register 0, nothing written in the buffers; nothing presented
on the ports yet and nothing recorded. -/
def State.reset : State where
  build := { bufCap := Config.bufCap, linkIdW := Config.linkIdW }
  live := false
  cfgN := 0
  cfgKind := .stream
  cfgChunk := 0
  rxLinkId := 0
  txState := .awaitingDelimiter
  rxState := .awaitingDelimiter
  txSize := 0
  sentSize := 0
  rxSize := 0
  txLinkId := 0
  statSof := 0
  statTxFrames := 0
  statRxFrames := 0
  txBuf := []
  rxBuf := []
  encOut := []
  hostPort := []
  replies := []
  txReadyIn := []
  rxReadyIn := []
  rxIn := []
  draws := 0
  events := []

end Sys2Proof.Machine
end

