-- ==== Sys2Proof/Machine/Flags.lean ====
section
/-! DEFINITION. The core has no flags and no condition codes (spec/10_state.md R41). What stands
in their place: the status codes a command reports (spec/60_exceptions.md R241), the numeric codes
of the one- and two-bit registers, and the wrap of the statistics counters. -/

namespace Sys2Proof.Machine

open Sys2Proof

/-- The 8-bit code of a status (R241). -/
def Status.code : Status → Byte
  | .ok => 0x00#8
  | .txOverflow => 0x01#8
  | .notLive => 0x02#8
  | .badConfig => 0x03#8
  | .illegalCmd => 0x04#8
  | .badReg => 0x05#8

/-- The 2-bit code of a framing state (spec/10_state.md R38). -/
def framingCode : Framing → Nat
  | .awaitingDelimiter => 0
  | .inFrame => 1
  | .inEscape => 2

/-- The 1-bit code of CFG_KIND (R23). -/
def kindCode : LinkKind → Nat
  | .stream => 0
  | .message => 1

/-- The 1-bit code of LIVE (R21). -/
def liveCode : Bool → Nat
  | false => 0
  | true => 1

/-- A statistics counter after one more event: modulo 2^STAT_W (R30, R31, R32). -/
def countUp (c : Stat) : Stat := c + 1

end Sys2Proof.Machine
end

