-- ==== Sys2Proof/Machine/Ops.lean ====
section
/-! DEFINITION. The named operations over the buffers and the ports (spec/00_scope.md R12, R13),
the answer to the host (spec/30_encoding.md R97), and the zero state. The core has no trap, no
vector and no mode (spec/60_exceptions.md R249), so there is no exception to take and none to
return from: `State.reply` is how every error is reported (R240). -/

namespace Sys2Proof.Machine

open Sys2Proof

/-- What a command, a codec row or a sub-step ends in. -/
abbrev Result := Host.Outcome State Fault Refusal

/-- Go on with the value of a part that did not stop. -/
def andThen {α β : Type} (o : Host.Outcome α Fault Refusal)
    (f : α → Host.Outcome β Fault Refusal) : Host.Outcome β Fault Refusal :=
  match o with
  | .next a => f a
  | .fault r => .fault r
  | .refused r => .refused r

/-! ## Buffer memories -/

/-- The byte at an index, if it has been written. -/
def Memory.read : Memory → Nat → Option Byte
  | [], _ => none
  | (k, v) :: rest, i => if k = i then some v else Memory.read rest i

/-- Write a byte at an index, keeping the indices strictly rising. -/
def Memory.write : Memory → Nat → Byte → Memory
  | [], i, b => [(i, b)]
  | (k, v) :: rest, i, b =>
      if i < k then (i, b) :: (k, v) :: rest
      else if i = k then (i, b) :: rest
      else (k, v) :: Memory.write rest i b

/-- Every index of the memory is above `lo`. -/
def Memory.above (lo : Nat) : Memory → Bool
  | [] => true
  | (k, _) :: rest => decide (lo < k) && Memory.above lo rest

/-- The canonical form: indices strictly rising. An unlisted index reads as unwritten, so no
entry can equal what an unlisted one reads as. -/
def Memory.wf : Memory → Bool
  | [] => true
  | (k, _) :: rest => Memory.above k rest && Memory.wf rest

/-- The contents of a buffer. -/
def State.buffer (s : State) : Buffer → Memory
  | .tx => s.txBuf
  | .rx => s.rxBuf

/-- The state with other contents of a buffer. -/
def State.setBuffer (s : State) (b : Buffer) (m : Memory) : State :=
  match b with
  | .tx => { s with txBuf := m }
  | .rx => { s with rxBuf := m }

/-- `TXBUF[i]` or `RXBUF[i]` in an expression (R12, spec/20_memory.md R60). -/
def readByte (b : Buffer) (i : Nat) (s : State) : Host.Outcome Byte Fault Refusal :=
  if i < s.build.bufCap then
    match (s.buffer b).read i with
    | some v => .next v
    | none => .fault (.unwrittenByte b i)
  else .fault (.outsideBuffer b i)

/-- `TXBUF[i] <- v` or `RXBUF[i] <- v` (R12, R60). -/
def writeByte (b : Buffer) (i : Nat) (v : Byte) (s : State) : Result :=
  if i < s.build.bufCap then .next (s.setBuffer b ((s.buffer b).write i v))
  else .fault (.outsideBuffer b i)

/-- The `count` bytes from index `i` up, one byte at a time (R66). -/
def readBytes (b : Buffer) (i : Nat) (s : State) : Nat → Host.Outcome (List Byte) Fault Refusal
  | 0 => .next []
  | count + 1 =>
      andThen (readByte b i s) fun v =>
        andThen (readBytes b (i + 1) s count) fun vs => .next (v :: vs)

/-- Write bytes from index `i` up, one byte at a time (R66). -/
def writeBytes (b : Buffer) (i : Nat) (vs : List Byte) (s : State) : Result :=
  match vs with
  | [] => .next s
  | v :: rest => andThen (writeByte b i v s) fun s' => writeBytes b (i + 1) rest s'

/-! ## Ports -/

/-- `return (status, value)`: the answer to the host (R97). -/
def State.reply (s : State) (status : Status) (value : Nat) : State :=
  { s with replies := s.replies ++ [{ status := status, value := value }] }

/-- Record a call on the link or delivery port (R13). -/
def State.emit (s : State) (e : Event) : State := { s with events := s.events ++ [e] }

/-- `tx_ready()`: the collaborator's next answer, or a free value (spec/93 U10). All
instances draw from the same constants, so equal `draws` give equal free answers (assumption log 15,
DESIGN CHOICE, unsafe). -/
def txReady (s : State) : Bool × State :=
  match s.txReadyIn with
  | a :: rest => (a, { s with txReadyIn := rest }.emit (.txReady a))
  | [] =>
      (Config.freeReady s.draws,
        { s with draws := s.draws + 1 }.emit (.txReady (Config.freeReady s.draws)))

/-- `rx_ready()`: the collaborator's next answer, or a free value (spec/93 U10). Instances with equal
`draws` get equal free answers (assumption log 15, DESIGN CHOICE, unsafe). -/
def rxReady (s : State) : Bool × State :=
  match s.rxReadyIn with
  | a :: rest => (a, { s with rxReadyIn := rest }.emit (.rxReady a))
  | [] =>
      (Config.freeReady s.draws,
        { s with draws := s.draws + 1 }.emit (.rxReady (Config.freeReady s.draws)))

/-- A free unit of the configured link variant, within the contract of R252: one byte, or an
identifier of LINKID_W bits with at most CHUNK bytes. Instances with equal `draws` and configuration
get equal free units (assumption log 15, DESIGN CHOICE, unsafe). -/
def freeUnit (s : State) : LinkUnit :=
  match s.cfgKind with
  | .stream => .byte (Config.freeByte s.draws)
  | .message =>
      .message (Config.freeLinkId s.draws % 2 ^ s.build.linkIdW)
        ((Config.freeBytes s.draws).take s.cfgChunk.toNat)

/-- Whether a received unit keeps the collaborator's contract (R46, R90, R252). -/
def unitInContract (s : State) : LinkUnit → Bool
  | .byte _ => s.cfgKind == .stream
  | .message id bytes =>
      s.cfgKind == .message && fitsWidth s.build.linkIdW id
        && decide (bytes.length ≤ s.cfgChunk.toNat)

/-- `rx_recv()`: the collaborator's next unit, or a free one; the step is refused where the unit
breaks the contract (R252, decision D40). -/
def rxRecv (s : State) : Host.Outcome (LinkUnit × State) Fault Refusal :=
  match s.rxIn with
  | u :: rest =>
      if unitInContract s u then .next (u, { s with rxIn := rest }.emit (.rxRecv u))
      else .refused (.unitOutsideContract u)
  | [] => .next (freeUnit s, { s with draws := s.draws + 1 }.emit (.rxRecv (freeUnit s)))

/-- The units that carry encoder output: one a byte on a STREAM link (R89), all of it in one unit
tagged with TX_LINK_ID on a MESSAGE link (R90). -/
def txUnits (kind : LinkKind) (id : LinkId) (bytes : List Byte) : List LinkUnit :=
  match kind with
  | .stream => bytes.map .byte
  | .message => [.message id bytes]

/-- `tx_send` of the current TASK's encoder output, after which that output is gone (R13, R190). -/
def txSend (s : State) : State :=
  { s with
    encOut := []
    events := s.events ++ (txUnits s.cfgKind s.txLinkId s.encOut).map .txSend }

/-! ## The zero state -/

/-- Every register of R20 at 0 and the buffers unspecified again, which is the power-on state
(spec/45_control.md R223, spec/70 R272); the build and the ports' records stay. -/
def State.cleared (s : State) : State :=
  { s with
    live := false
    cfgN := 0
    cfgKind := .stream
    cfgChunk := 0
    rxLinkId := 0
    txState := .awaitingDelimiter
    rxState := .awaitingDelimiter
    txSize := 0
    sentSize := 0
    rxSize := 0
    txLinkId := 0
    statSof := 0
    statTxFrames := 0
    statRxFrames := 0
    txBuf := []
    rxBuf := [] }

end Sys2Proof.Machine
end

