-- ==== Sys2Proof/Machine/Operands.lean ====
section
/-! DEFINITION. The operand forms: a register number (spec/10_state.md R37), a configuration
(spec/45_control.md R221), a payload (spec/43_send.md R180), and the decoder's view of RX_SIZE
(spec/42_decoder.md R153). -/

namespace Sys2Proof.Machine

open Sys2Proof

/-- The value of the register a READ_REG number names, zero-extended; `none` where the number is
reserved (R37). -/
def regValue (s : State) (reg : Byte) : Option Nat :=
  match reg.toNat with
  | 0x00 => some (liveCode s.live)
  | 0x01 => some s.cfgN.toNat
  | 0x02 => some (kindCode s.cfgKind)
  | 0x03 => some s.cfgChunk.toNat
  | 0x04 => some (framingCode s.txState)
  | 0x05 => some (framingCode s.rxState)
  | 0x06 => some s.txSize.toNat
  | 0x07 => some s.sentSize.toNat
  | 0x08 => some s.rxSize.toNat
  | 0x09 => some s.statSof.toNat
  | 0x0A => some s.statTxFrames.toNat
  | 0x0B => some s.statRxFrames.toNat
  | 0x0C => some s.txLinkId
  | 0x0D => some s.rxLinkId
  | _ => none

/-- INIT's validation of its operands (R221). -/
def configValid (s : State) (n : Size) (kind : LinkKind) (chunk : Size) : Bool :=
  decide (1 ≤ n.toNat) && decide (n.toNat + 2 ≤ s.build.bufCap)
    && (kind != .message || decide (1 ≤ chunk.toNat))

/-- The status SEND answers on a payload, tested in the order of R180. -/
def sendStatus (s : State) (payload : List Byte) : Status :=
  if s.live = false then .notLive
  else if s.cfgN.toNat < payload.length then .txOverflow
  else if payload.length = 0 then .txOverflow
  else if s.txSize ≠ 0 then .txOverflow
  else .ok

/-- RX_SIZE = RX_CAP, where RX_CAP = N + 2 (R153). -/
def rxFull (s : State) : Bool := s.rxSize.toNat == s.cfgN.toNat + 2

end Sys2Proof.Machine
end

