-- ==== Sys2Proof/Machine/Control.lean ====
section
/-! DEFINITION. The control commands: INIT, TEARDOWN, CRC16, READ_REG and the reserved opcodes
(spec/45_control.md R220 to R225, spec/40_crc.md R113). -/

namespace Sys2Proof.Machine

open Sys2Proof

/-- The state after a successful INIT (R220, spec/70 R271): everything zero but the configuration
and LIVE. The operands `chunk` and `rx_link` are ignored for STREAM. -/
def configured (n : Size) (kind : LinkKind) (chunk : Size) (rxLink : LinkId) (s : State) : State :=
  { s.cleared with
    live := true
    cfgN := n
    cfgKind := kind
    cfgChunk := if kind = .message then chunk else 0
    rxLinkId := if kind = .message then rxLink else 0 }

/-- INIT (R220, R221, R222). -/
def execInit (n : Size) (kind : LinkKind) (chunk : Size) (rxLink : LinkId) (s : State) : Result :=
  if configValid s n kind chunk then .next ((configured n kind chunk rxLink s).reply .ok 0)
  else .next (s.reply .badConfig 0)

/-- TEARDOWN (R223). -/
def execTeardown (s : State) : Result := .next (s.cleared.reply .ok 0)

/-- CRC16 (R113). -/
def execCrc16 (data : List Byte) (s : State) : Result := .next (s.reply .ok (crc16 data).toNat)

/-- READ_REG (R224). -/
def execReadReg (reg : Byte) (s : State) : Result :=
  match regValue s reg with
  | some v => .next (s.reply .ok v)
  | none => .next (s.reply .badReg 0)

/-- A reserved opcode, whichever it is (R225). -/
def execIllegalCmd (_op : Byte) (s : State) : Result := .next (s.reply .illegalCmd 0)

end Sys2Proof.Machine
end

