-- ==== Sys2Proof/Machine/Frame.lean ====
section
/-! DEFINITION. The wire format of a frame (spec/30_encoding.md R80 to R86). The codec of the
machine does not call these: they say what its bytes amount to, and statements compare the two. -/

namespace Sys2Proof.Machine

open Sys2Proof

/-- The stuffing of one byte (R82). -/
def stuffByte (b : Byte) : List Byte := if reserved b then [esc, substituteOf b] else [b]

/-- Stuffing (R82). -/
def stuff : List Byte → List Byte
  | [] => []
  | b :: rest => stuffByte b ++ stuff rest

/-- Unstuffing, the inverse on stuffed bodies (R83); `none` where the body is not a stuffed one. -/
def unstuff : List Byte → Option (List Byte)
  | [] => some []
  | x :: rest =>
      if x = delim then none
      else if x = esc then
        match rest with
        | [] => none
        | y :: rest' =>
            if y = subDelim then (unstuff rest').map (delim :: ·)
            else if y = subEsc then (unstuff rest').map (esc :: ·)
            else none
      else (unstuff rest).map (x :: ·)

/-- A payload with its CRC, as SEND stores it in TXBUF (R84). -/
def withCrc (p : List Byte) : List Byte := p ++ crcBytes p

/-- The frame that carries a payload (R80). -/
def frame (p : List Byte) : List Byte := delim :: (stuff (withCrc p) ++ [delim])

/-- `e`: how many bytes of the payload and its CRC are reserved (R85). -/
def escapes (p : List Byte) : Nat := (withCrc p).countP reserved

end Sys2Proof.Machine
end

