-- ==== Sys2Proof/Machine/Send.lean ====
section
/-! DEFINITION. SEND (spec/43_send.md R180 to R184). -/

namespace Sys2Proof.Machine

open Sys2Proof

/-- A payload that SEND accepts: TXBUF, TX_SIZE, SENT_SIZE, and TX_LINK_ID on a MESSAGE link
(R180, R183). -/
def loadPayload (linkId : LinkId) (payload : List Byte) (s : State) : Result :=
  andThen (writeBytes .tx 0 (withCrc payload) s) fun s' =>
    .next { s' with
      txSize := BitVec.ofNat 16 (payload.length + 2)
      sentSize := 0
      txLinkId := if s.cfgKind = .message then linkId else s.txLinkId }

/-- SEND (R180). -/
def execSend (linkId : LinkId) (payload : List Byte) (s : State) : Result :=
  match sendStatus s payload with
  | .ok => andThen (loadPayload linkId payload s) fun s' => .next (s'.reply .ok 0)
  | status => .next (s.reply status 0)

end Sys2Proof.Machine
end

