-- ==== Sys2Proof/Machine/Decoder.lean ====
section
/-! DEFINITION. The byte-stuffing decoder (spec/42_decoder.md R150 to R153): the ten byte classes,
FINALIZE, DEC_BYTE, and the row of each class as an instruction. -/

namespace Sys2Proof.Machine

open Sys2Proof

/-- START: a delimiter in AWAITING_DELIMITER (R150). -/
def rxStartAct (s : State) : Result :=
  .next { s with statSof := countUp s.statSof, rxState := .inFrame, rxSize := 0 }

/-- IGNORE: any other byte in AWAITING_DELIMITER (R150). -/
def rxIgnoreAct (s : State) : Result := .next s

/-- ESCAPE: nothing is stored (R150). -/
def rxEscapeAct (s : State) : Result := .next { s with rxState := .inEscape }

/-- `drop_frame()` (R152). -/
def dropFrame (s : State) : Result :=
  .next { s with rxSize := 0, rxState := .awaitingDelimiter }

/-- FINALIZE's CRC check over RXBUF[0..n), and the delivery on a match (R151). -/
def finalizeFrame (n : Nat) (s : State) : Result :=
  andThen (readBytes .rx 0 s (n - 2)) fun p =>
    andThen (readByte .rx (n - 2) s) fun lo =>
      andThen (readByte .rx (n - 1) s) fun hi =>
        if crc16 p = fromLowHigh lo hi then
          .next ({ s with statRxFrames := countUp s.statRxFrames }.emit (.deliver p))
        else .next s

/-- FINALIZE: a frame of fewer than 3 bytes is discarded (R151). -/
def finalize (s : State) : Result :=
  if s.rxSize.toNat < 3 then .next s else finalizeFrame s.rxSize.toNat s

/-- END: FINALIZE, then back to AWAITING_DELIMITER (R150). -/
def rxEndAct (s : State) : Result :=
  andThen (finalize s) fun s' => .next { s' with rxSize := 0, rxState := .awaitingDelimiter }

/-- `RXBUF[RX_SIZE] <- b; RX_SIZE <- RX_SIZE + 1` (R150). -/
def rxStore (b : Byte) (s : State) : Result :=
  andThen (writeByte .rx s.rxSize.toNat b s) fun s' => .next { s' with rxSize := s.rxSize + 1 }

/-- DATA: the byte is stored (R150). -/
def rxDataAct (x : Byte) (s : State) : Result := rxStore x s

/-- A substitute: its literal is stored, and the frame goes on (R150). -/
def rxSubstituteAct (literal : Byte) (s : State) : Result :=
  andThen (rxStore literal s) fun s' => .next { s' with rxState := .inFrame }

/-- What a byte `x` of a class does. -/
def rxAct (c : RxClass) (x : Byte) (s : State) : Result :=
  match c with
  | .start => rxStartAct s
  | .ignore => rxIgnoreAct s
  | .escape => rxEscapeAct s
  | .frameEnd => rxEndAct s
  | .overflow => dropFrame s
  | .data => rxDataAct x s
  | .substDelim => rxSubstituteAct delim s
  | .substEsc => rxSubstituteAct esc s
  | .full => dropFrame s
  | .badEscape => dropFrame s

/-- The class of a received byte in a state (spec/30_encoding.md R87). -/
def rxClassOf (x : Byte) (s : State) : RxClass := classify s.rxState (rxFull s) x

/-- DEC_BYTE(x) (R150). -/
def decByte (x : Byte) (s : State) : Result := rxAct (rxClassOf x s) x s

/-- DEC_BYTE on each byte in order (spec/44_scheduler.md R195, R200). -/
def decBytes (bs : List Byte) (s : State) : Result :=
  match bs with
  | [] => .next s
  | x :: rest => andThen (decByte x s) fun s' => decBytes rest s'

/-- A row of the decoder by itself: it runs where DEC_BYTE(x) selects it. -/
def runRxRow (c : RxClass) (x : Byte) (s : State) : Result :=
  if rxClassOf x s = c then rxAct c x s else .fault .rowNotSelected

/-- RX_START: its byte is the delimiter (R150). -/
def execRxStart (s : State) : Result := runRxRow .start delim s

/-- RX_IGNORE (R150). -/
def execRxIgnore (x : Byte) (s : State) : Result := runRxRow .ignore x s

/-- RX_ESCAPE: its byte is the escape (R150). -/
def execRxEscape (s : State) : Result := runRxRow .escape esc s

/-- RX_END: its byte is the delimiter (R150). -/
def execRxEnd (s : State) : Result := runRxRow .frameEnd delim s

/-- RX_OVERFLOW (R150). -/
def execRxOverflow (x : Byte) (s : State) : Result := runRxRow .overflow x s

/-- RX_DATA (R150). -/
def execRxData (x : Byte) (s : State) : Result := runRxRow .data x s

/-- RX_SUB_DELIM: its byte is 0x5E (R150). -/
def execRxSubDelim (s : State) : Result := runRxRow .substDelim subDelim s

/-- RX_SUB_ESC: its byte is 0x5D (R150). -/
def execRxSubEsc (s : State) : Result := runRxRow .substEsc subEsc s

/-- RX_FULL (R150, R154). -/
def execRxFull (x : Byte) (s : State) : Result := runRxRow .full x s

/-- RX_BAD_ESCAPE (R150, R155). -/
def execRxBadEscape (x : Byte) (s : State) : Result := runRxRow .badEscape x s

end Sys2Proof.Machine
end

