-- ==== Sys2Proof/Machine/Encoder.lean ====
section
/-! DEFINITION. The byte-stuffing encoder (spec/41_encoder.md R130): the five cases of ENC_STEP,
ENC_STEP itself, and the row of each case as an instruction. The byte an ENC_STEP returns is
appended to `encOut`. -/

namespace Sys2Proof.Machine

open Sys2Proof

/-- The case of the next ENC_STEP, in R130's order. TXBUF is read only where the case depends on
the byte: in IN_FRAME, with bytes left. -/
def txCase (s : State) : Host.Outcome TxCase Fault Refusal :=
  if s.txSize = 0 then .fault .encStepIdle
  else if s.sentSize ≠ s.txSize ∧ s.txState = .inFrame then
    andThen (readByte .tx s.sentSize.toNat s) fun b => .next (txCaseOf .inFrame false b)
  else .next (txCaseOf s.txState (s.sentSize == s.txSize) 0#8)

/-- All payload and CRC bytes are out: the closing delimiter. TX_SIZE is cleared too (decision D6). -/
def txCloseAct (s : State) : Result :=
  .next { s with
    sentSize := 0
    txSize := 0
    txState := .awaitingDelimiter
    statTxFrames := countUp s.statTxFrames
    encOut := s.encOut ++ [txOutput .close 0#8] }

/-- AWAITING_DELIMITER: the opening delimiter. -/
def txOpenAct (s : State) : Result :=
  .next { s with
    txState := .inFrame
    encOut := s.encOut ++ [txOutput .opening 0#8] }

/-- IN_FRAME with a reserved byte next: the escape, the byte not consumed. -/
def txEscapeAct (s : State) : Result :=
  .next { s with
    txState := .inEscape
    encOut := s.encOut ++ [txOutput .escape 0#8] }

/-- IN_FRAME otherwise: the byte itself, consumed. -/
def txLiteralAct (s : State) : Result :=
  andThen (readByte .tx s.sentSize.toNat s) fun b =>
    .next { s with
      sentSize := s.sentSize + 1
      encOut := s.encOut ++ [txOutput .literal b] }

/-- IN_ESCAPE: the byte's substitute, and the byte consumed. -/
def txSubstituteAct (s : State) : Result :=
  andThen (readByte .tx s.sentSize.toNat s) fun b =>
    .next { s with
      sentSize := s.sentSize + 1
      txState := .inFrame
      encOut := s.encOut ++ [txOutput .substitute b] }

/-- What a case does. -/
def txAct (c : TxCase) (s : State) : Result :=
  match c with
  | .close => txCloseAct s
  | .opening => txOpenAct s
  | .escape => txEscapeAct s
  | .literal => txLiteralAct s
  | .substitute => txSubstituteAct s

/-- ENC_STEP: the state after it, and `closed`, which is true exactly for the closing delimiter
(R130). -/
def encStep (s : State) : Host.Outcome (State × Bool) Fault Refusal :=
  andThen (txCase s) fun c => andThen (txAct c s) fun s' => .next (s', c == .close)

/-- A row of the encoder by itself: it runs where ENC_STEP selects it. -/
def runTxRow (c : TxCase) (s : State) : Result :=
  andThen (txCase s) fun c' => if c' = c then txAct c s else .fault .rowNotSelected

/-- TX_CLOSE (R130). -/
def execTxClose (s : State) : Result := runTxRow .close s

/-- TX_OPEN (R130). -/
def execTxOpen (s : State) : Result := runTxRow .opening s

/-- TX_ESCAPE (R130). -/
def execTxEscape (s : State) : Result := runTxRow .escape s

/-- TX_LITERAL (R130). -/
def execTxLiteral (s : State) : Result := runTxRow .literal s

/-- TX_SUBSTITUTE (R130). -/
def execTxSubstitute (s : State) : Result := runTxRow .substitute s

end Sys2Proof.Machine
end

