-- ==== Sys2Proof/Machine/Task.lean ====
section
/-! DEFINITION. The scheduler step TASK (spec/44_scheduler.md R190 to R200). -/

namespace Sys2Proof.Machine

open Sys2Proof

/-- ENC_STEPs of one MESSAGE unit: at least one, and up to `more` further ones, stopping after the
step that emits the closing delimiter (R193). -/
def encSteps : Nat → State → Result
  | 0, s => andThen (encStep s) fun r => .next r.1
  | more + 1, s =>
      andThen (encStep s) fun r => if r.2 = true then .next r.1 else encSteps more r.1

/-- How many ENC_STEPs may follow the first in one TASK: none on a STREAM link (R192), CHUNK - 1
on a MESSAGE link (R193). -/
def moreSteps (s : State) : Nat :=
  match s.cfgKind with
  | .stream => 0
  | .message => s.cfgChunk.toNat - 1

/-- Produce one link unit and hand it to tx_send (R192, R193); `c` starts empty (R190). -/
def transmit (s : State) : Result :=
  andThen (encSteps (moreSteps s) { s with encOut := [] }) fun s' => .next (txSend s')

/-- The transmit sub-step: tx_ready is queried always, and a frame is pending while TX_SIZE != 0
(R190, R191, R197). -/
def txSubStep (s : State) : Result :=
  let q := txReady s
  if q.1 = true ∧ q.2.txSize ≠ 0 then transmit q.2 else .next q.2

/-- Decode a received unit: a STREAM byte; the bytes of a MESSAGE unit whose identifier is
RX_LINK_ID, and nothing of any other (R194, R195). -/
def decodeUnit (u : LinkUnit) (s : State) : Result :=
  match u with
  | .byte x => decByte x s
  | .message id bytes => if id = s.rxLinkId then decBytes bytes s else .next s

/-- Take one unit and decode it. -/
def receive (s : State) : Result := andThen (rxRecv s) fun r => decodeUnit r.1 r.2

/-- The receive sub-step: rx_ready is queried always (R190, R197). -/
def rxSubStep (s : State) : Result :=
  let q := rxReady s
  if q.1 = true then receive q.2 else .next q.2

/-- TASK (R190): the transmit sub-step, then the receive sub-step (R196). -/
def execTask (s : State) : Result :=
  if s.live = false then .next (s.reply .notLive 0)
  else
    andThen (txSubStep s) fun s1 =>
      andThen (rxSubStep s1) fun s2 => .next (s2.reply .ok 0)

end Sys2Proof.Machine
end

