-- ==== Sys2Proof/Machine/Dispatch.lean ====
section
/-! DEFINITION. One arm per row of spec/opcode_table.json. -/

namespace Sys2Proof.Machine

def exec (i : Instr) (s : State) : Host.Outcome State Fault Refusal :=
  match i with
  | .init n kind chunk rxLink => Sys2Proof.Machine.execInit n kind chunk rxLink s
  | .teardown => Sys2Proof.Machine.execTeardown s
  | .send linkId payload => Sys2Proof.Machine.execSend linkId payload s
  | .task => Sys2Proof.Machine.execTask s
  | .crc16 data => Sys2Proof.Machine.execCrc16 data s
  | .readReg reg => Sys2Proof.Machine.execReadReg reg s
  | .illegalCmd op => Sys2Proof.Machine.execIllegalCmd op s
  | .rxStart => Sys2Proof.Machine.execRxStart s
  | .rxIgnore x => Sys2Proof.Machine.execRxIgnore x s
  | .rxEscape => Sys2Proof.Machine.execRxEscape s
  | .rxEnd => Sys2Proof.Machine.execRxEnd s
  | .rxOverflow x => Sys2Proof.Machine.execRxOverflow x s
  | .rxData x => Sys2Proof.Machine.execRxData x s
  | .rxSubDelim => Sys2Proof.Machine.execRxSubDelim s
  | .rxSubEsc => Sys2Proof.Machine.execRxSubEsc s
  | .rxFull x => Sys2Proof.Machine.execRxFull x s
  | .rxBadEscape x => Sys2Proof.Machine.execRxBadEscape x s
  | .txClose => Sys2Proof.Machine.execTxClose s
  | .txOpen => Sys2Proof.Machine.execTxOpen s
  | .txEscape => Sys2Proof.Machine.execTxEscape s
  | .txLiteral => Sys2Proof.Machine.execTxLiteral s
  | .txSubstitute => Sys2Proof.Machine.execTxSubstitute s

end Sys2Proof.Machine
end

