-- ==== Sys2Proof/Machine/Step.lean ====
section
/-! DEFINITION. One step: the command on the host port, decoded and run as one atomic step
(spec/00_scope.md R6, spec/10_state.md R42). -/

namespace Sys2Proof.Machine

open Sys2Proof

/-- One step. With no command presented the state holds (spec/60_exceptions.md R258). -/
def step (s : State) : Host.Outcome State Fault Refusal :=
  match s.hostPort with
  | [] => .next s
  | c :: rest =>
      match decode s.build.linkIdW c with
      | .ok i => exec i { s with hostPort := rest }
      | .error r => .refused (.malformedCommand r)

/-- The state with the command of opcode `w`, operands zero or empty, next on the host port. -/
def State.withFetchWord (s : State) (_nbits w : Nat) : State :=
  { s with hostPort := tableCommand w :: s.hostPort }

end Sys2Proof.Machine
end

