-- ==== Sys2Proof/Machine/Instances.lean ====
section
/-! DEFINITION. Several instances (spec/60_exceptions.md R255): each has its own registers,
buffers, collaborator and sink, and none shares state with another. The list of states is the
model's reading (assumption log 11, DEDUCED). Free link answers past the lists come from constants
that all instances draw from, each at its own `draws` (assumption log 15, DESIGN CHOICE, unsafe). -/

namespace Sys2Proof.Machine

open Sys2Proof

/-- One step of instance `k`; there is nothing to step where no instance has that number. -/
def stepInstance (k : Nat) (sys : List State) : Host.Outcome (List State) Fault Refusal :=
  match sys[k]? with
  | none => .next sys
  | some s => andThen (step s) fun t => .next (sys.set k t)

end Sys2Proof.Machine
end

