-- ==== Sys2Proof/Safety.lean ====
section
/-! DEFINITION. What a good state is (the invariants of spec/10_state.md R50 to R58, with the legal
values of R8 and R21 to R36), and the runs and records that statements speak of. -/

namespace Sys2Proof.Machine

open Sys2Proof

/-! ## Good states -/

/-- The build parameters are legal: BUF_CAP >= 3, 2^SIZE_W - 1 >= BUF_CAP, LINKID_W >= 1 (R8). -/
def BuildOk (b : Build) : Prop := 3 ≤ b.bufCap ∧ b.bufCap < 2 ^ 16 ∧ 1 ≤ b.linkIdW

/-- The memory holds the bytes `bs` from index 0 up. -/
def Holds (m : Memory) (bs : List Byte) : Prop := ∀ i, i < bs.length → m.read i = bs[i]?

/-- No index at or above `cap` is written. -/
def Inside (m : Memory) (cap : Nat) : Prop := ∀ i, cap ≤ i → m.read i = none

/-- The invariant of every state that the commands reach from power-on. -/
structure Inv (s : State) : Prop where
  /-- R8. -/
  build : BuildOk s.build
  /-- TXBUF is in canonical form. -/
  txWf : s.txBuf.wf = true
  /-- RXBUF is in canonical form. -/
  rxWf : s.rxBuf.wf = true
  /-- R60. -/
  txInside : Inside s.txBuf s.build.bufCap
  /-- R60. -/
  rxInside : Inside s.rxBuf s.build.bufCap
  /-- R22: legal values while live. -/
  config : s.live = true → 1 ≤ s.cfgN.toNat ∧ s.cfgN.toNat + 2 ≤ s.build.bufCap
  /-- R24. -/
  chunk : s.live = true → s.cfgKind = .message → 1 ≤ s.cfgChunk.toNat
  /-- R24, R33, R34: what stays 0 on a STREAM link. -/
  streamZero : s.cfgKind = .stream → s.cfgChunk = 0 ∧ s.rxLinkId = 0 ∧ s.txLinkId = 0
  /-- R33, R34: identifiers of LINKID_W bits. -/
  linkIds : s.rxLinkId < 2 ^ s.build.linkIdW ∧ s.txLinkId < 2 ^ s.build.linkIdW
  /-- R50. -/
  sizes : s.sentSize.toNat ≤ s.txSize.toNat ∧ s.txSize.toNat ≤ s.cfgN.toNat + 2
  /-- R51. -/
  txSizeLegal : s.txSize = 0 ∨ 3 ≤ s.txSize.toNat
  /-- R52. -/
  txIdle : s.txSize = 0 → s.txState = .awaitingDelimiter ∧ s.sentSize = 0
  /-- R53. -/
  txAwaiting : s.txState = .awaitingDelimiter → s.sentSize = 0
  /-- R54. -/
  txEscaped : s.txState = .inEscape →
    s.sentSize.toNat < s.txSize.toNat ∧
      (s.txBuf.read s.sentSize.toNat = some delim ∨ s.txBuf.read s.sentSize.toNat = some esc)
  /-- R35, R57: TXBUF holds a payload and its CRC while a frame is pending. -/
  pending : s.txSize ≠ 0 →
    ∃ p : List Byte, s.txSize.toNat = p.length + 2 ∧ Holds s.txBuf (withCrc p)
  /-- R56. -/
  rxSizeLe : s.rxSize.toNat ≤ s.cfgN.toNat + 2
  /-- R56. -/
  rxAwaiting : s.rxState = .awaitingDelimiter → s.rxSize = 0
  /-- R57. -/
  rxWritten : ∀ i, i < s.rxSize.toNat → (s.rxBuf.read i).isSome = true
  /-- R58: not live, every register is 0 (and the buffers are as after power-on). -/
  notLive : s.live = false → s.cleared = s
  /-- No ENC_STEP output is left over between commands (R190). -/
  noOutput : s.encOut = []

/-- The collaborator's next unit, if it is listed, keeps the contract of R252. -/
def NextUnitInContract (s : State) : Prop :=
  ∀ u, s.rxIn.head? = some u → unitInContract s u = true

/-- The command on the port, if any, has operands that fit their fields (R96). -/
def NextCommandFits (s : State) : Prop :=
  ∀ c, s.hostPort.head? = some c → c.instr.reject s.build.linkIdW = none

/-- A frame pending from its first byte: SEND has stored `p` and no ENC_STEP has run since (R180). -/
structure Loaded (p : List Byte) (s : State) : Prop where
  state : s.txState = .awaitingDelimiter
  nothingSent : s.sentSize = 0
  size : s.txSize.toNat = p.length + 2
  stored : Holds s.txBuf (withCrc p)
  inside : p.length + 2 ≤ s.build.bufCap

/-- The decoder has room for a frame of payload `p`: 1 <= len(p) <= N, and N + 2 bytes of RXBUF
exist (R22, R153). -/
structure Receivable (p : List Byte) (s : State) : Prop where
  nonempty : 1 ≤ p.length
  fits : p.length ≤ s.cfgN.toNat
  capacity : s.cfgN.toNat + 2 ≤ s.build.bufCap
  sizes : s.build.bufCap < 2 ^ 16

/-! ## The two sides -/

/-- `s` with the transmit side of `v`: the TX registers, TXBUF, STAT_TX_FRAMES, and the encoder's
output (spec/42_decoder.md R162). -/
def State.withTxOf (s v : State) : State :=
  { s with
    txState := v.txState
    txSize := v.txSize
    sentSize := v.sentSize
    txLinkId := v.txLinkId
    statTxFrames := v.statTxFrames
    txBuf := v.txBuf
    encOut := v.encOut }

/-- `s` with the receive side of `v`: the RX registers, RXBUF, STAT_SOF and STAT_RX_FRAMES
(spec/41_encoder.md R136). -/
def State.withRxOf (s v : State) : State :=
  { s with
    rxState := v.rxState
    rxSize := v.rxSize
    rxLinkId := v.rxLinkId
    statSof := v.statSof
    statRxFrames := v.statRxFrames
    rxBuf := v.rxBuf }

/-- The measure of spec/41_encoder.md R133. -/
def encMeasure (s : State) : Nat :=
  match s.txState with
  | .awaitingDelimiter => 2 * s.sentSize.toNat
  | .inFrame => 2 * s.sentSize.toNat + 1
  | .inEscape => 2 * s.sentSize.toNat + 2

/-! ## Runs -/

/-- `n` ENC_STEPs in a row. -/
def encRun : Nat → State → Result
  | 0, s => .next s
  | n + 1, s => andThen (encStep s) fun r => encRun n r.1

/-- `n` TASKs in a row. -/
def taskRun : Nat → State → Result
  | 0, s => .next s
  | n + 1, s => andThen (exec .task s) (taskRun n)

/-! ## Records -/

/-- The payloads delivered, in order. -/
def deliveries : List Event → List (List Byte)
  | [] => []
  | .deliver p :: rest => p :: deliveries rest
  | .txReady _ :: rest | .txSend _ :: rest | .rxReady _ :: rest | .rxRecv _ :: rest =>
      deliveries rest

/-- The units handed to tx_send, in order. -/
def sentUnits : List Event → List LinkUnit
  | [] => []
  | .txSend u :: rest => u :: sentUnits rest
  | .txReady _ :: rest | .deliver _ :: rest | .rxReady _ :: rest | .rxRecv _ :: rest =>
      sentUnits rest

/-- The indices of RXBUF that DEC_BYTE stores to as it decodes `bs` from `s` (R150). -/
def storeIndices : List Byte → State → List Nat
  | [], _ => []
  | x :: rest, s =>
      (match rxClassOf x s with
        | .data | .substDelim | .substEsc => [s.rxSize.toNat]
        | .start | .ignore | .escape | .frameEnd | .overflow | .full | .badEscape => [])
      ++ match decByte x s with
        | .next t => storeIndices rest t
        | .fault _ | .refused _ => []

/-- The bytes of a received unit that are decoded: none where the filter drops it (R194, R195). -/
def decodedBytes (s : State) : LinkUnit → List Byte
  | .byte x => [x]
  | .message id bytes => if id = s.rxLinkId then bytes else []

/-- The indices of RXBUF that a TASK stores to (R190). -/
def taskStores (s : State) : List Nat :=
  if s.live = false then []
  else match txSubStep s with
    | .next s1 =>
        if (rxReady s1).1 then
          match rxRecv (rxReady s1).2 with
          | .next r => storeIndices (decodedBytes r.2 r.1) r.2
          | .fault _ | .refused _ => []
        else []
    | .fault _ | .refused _ => []

end Sys2Proof.Machine
end

