-- ==== Sys2Proof/Certificates/Slice0/Obligations.lean ====
section
/-! DEFINITION. The statements for the provers. Each docstring names the rules of spec/ it
formalises. `s.reply st v` is `s` with the answer (st, v) given to the host and nothing else
changed. -/

open Sys2Proof Sys2Proof.Machine

/-! ## Encoding -/

/-- Every well-formed row of the opcode table decodes from its encoding to itself, with every
operand (spec/30_encoding.md R94 to R98, R87; spec/41_encoder.md R130). -/
def Obligations.EncodedInstructionDecodes : Prop :=
  ∀ (w : Nat) (i : Instr), i.wellFormed w = true → (encode i).decode w = .ok i

/-- Each command word has one meaning: what it decodes to encodes to the word's own opcode and
operand fields (R94, R96). That the fields an opcode does not have are ignored is the model's
reading (assumption log 8, DEDUCED). -/
def Obligations.DecodedCommandEncodesToItsFields : Prop :=
  ∀ (w : Nat) (c : Command) (i : Instr), decode w c = .ok i → encode i = .command c.present

/-- Words written out from R95, R87 and R130 decode to the rows they stand for. -/
def Obligations.TableWordsDecode : Prop :=
  decodeTableWord 8 0x01 = some (.init 0 .stream 0 0)
    ∧ decodeTableWord 8 0x03 = some (.send 0 [])
    ∧ decodeTableWord 8 0x04 = some .task
    ∧ decodeTableWord 8 0x06 = some (.readReg 0)
    ∧ decodeTableWord 8 0x00 = some (.illegalCmd 0x00#8)
    ∧ decodeTableWord 8 0xFF = some (.illegalCmd 0xFF#8)
    ∧ (Encoding.received .awaitingDelimiter false 0x7E#8).decode 1 = .ok .rxStart
    ∧ (Encoding.received .inFrame false 0x7E#8).decode 1 = .ok .rxEnd
    ∧ (Encoding.received .inEscape false 0x7E#8).decode 1 = .ok (.rxBadEscape 0x7E#8)
    ∧ (Encoding.received .inEscape true 0x5D#8).decode 1 = .ok (.rxFull 0x5D#8)
    ∧ (Encoding.encStep .inFrame true 0x7E#8).decode 1 = .ok .txClose
    ∧ (Encoding.encStep .inFrame false 0x7E#8).decode 1 = .ok .txEscape

/-! ## The step and the power-on state -/

/-- A step runs the command on the port as one atomic step (R6, R42). The other two clauses are the
model's choices: with none presented a step leaves the state as it is (assumption log 3, DESIGN
CHOICE; R258 says that the state holds between commands), and a command whose operand does not fit
the field that R96 gives it is refused by name (assumption log 8, DESIGN CHOICE). -/
def Obligations.StepRunsDecodedCommand : Prop :=
  (∀ (s : State) (c : Command) (rest : List Command) (i : Instr),
      s.hostPort = c :: rest → decode s.build.linkIdW c = .ok i →
        step s = exec i { s with hostPort := rest })
    ∧ (∀ s : State, s.hostPort = [] → step s = .next s)
    ∧ ∀ (s : State) (c : Command) (rest : List Command) (r : Reject),
        s.hostPort = c :: rest → decode s.build.linkIdW c = .error r →
          step s = .refused (.malformedCommand r)

/-- R270: at power-on every register is 0, and no command but INIT leaves that state. -/
def Obligations.PowerOnState : Prop :=
  (State.reset.live = false ∧ State.reset.cfgN = 0 ∧ State.reset.cfgKind = .stream
      ∧ State.reset.cfgChunk = 0 ∧ State.reset.txState = .awaitingDelimiter
      ∧ State.reset.rxState = .awaitingDelimiter ∧ State.reset.txSize = 0
      ∧ State.reset.sentSize = 0 ∧ State.reset.rxSize = 0 ∧ State.reset.statSof = 0
      ∧ State.reset.statTxFrames = 0 ∧ State.reset.statRxFrames = 0
      ∧ State.reset.txLinkId = 0 ∧ State.reset.rxLinkId = 0)
    ∧ ∀ (i : Instr) (t : State), i.isCommand = true →
        (∀ n kind chunk rxLink, i ≠ .init n kind chunk rxLink) →
          exec i State.reset = .next t → t = { t.cleared with txBuf := t.txBuf, rxBuf := t.rxBuf }

/-- The model's choice for the contents that R273 leaves unspecified (assumption log 1): after
power-on, a successful INIT and TEARDOWN no byte of either buffer is written, and reading one
faults, at every index the buffers have. -/
def Obligations.UnspecifiedBuffersAreUnwritten : Prop :=
  (∀ (b : Buffer) (i : Nat), i < State.reset.build.bufCap →
      readByte b i State.reset = .fault (.unwrittenByte b i))
    ∧ (∀ (s t : State) (b : Buffer) (i : Nat), i < s.build.bufCap → exec .teardown s = .next t →
        readByte b i t = .fault (.unwrittenByte b i))
    ∧ ∀ (s t : State) (n chunk : Size) (kind : LinkKind) (rxLink : LinkId) (b : Buffer) (i : Nat),
        i < s.build.bufCap → 1 ≤ n.toNat → n.toNat + 2 ≤ s.build.bufCap →
        (kind = .message → 1 ≤ chunk.toNat) → exec (.init n kind chunk rxLink) s = .next t →
        readByte b i t = .fault (.unwrittenByte b i)

/-- The power-on state is a good state (R50 to R58). -/
def Obligations.PowerOnMeetsInvariant : Prop := Inv State.reset

/-- Every step keeps the invariant: R50 to R58, the legal register values, and the canonical form
of both buffers. -/
def Obligations.StepKeepsInvariant : Prop :=
  ∀ s t : State, Inv s → step s = .next t → Inv t

/-- From a good state no step faults: no unwritten byte is read (R57), no access leaves a buffer
(R60), no ENC_STEP is idle (R130, R191). -/
def Obligations.StepNeverFaults : Prop :=
  ∀ (s : State) (r : Fault), Inv s → step s ≠ .fault r

/-- From a good state, every command that fits the port and every unit within the collaborator's
contract completes (R240, R252). -/
def Obligations.StepCompletes : Prop :=
  ∀ s : State, Inv s → NextCommandFits s → NextUnitInContract s → ∃ t, step s = .next t

/-- Every command answers exactly once; the value is 0 unless the status is OK, V for CRC16, the
register's value for READ_REG where the status is OK, and 0 for every other command (R97). -/
def Obligations.EveryCommandAnswersOnce : Prop :=
  ∀ (i : Instr) (s t : State), i.isCommand = true → exec i s = .next t →
    ∃ r : Reply, t.replies = s.replies ++ [r]
      ∧ (r.status ≠ .ok → r.value = 0)
      ∧ (∀ data, i = .crc16 data → r.value = (crc16 data).toNat)
      ∧ (∀ reg, i = .readReg reg → r.status = .ok → regValue s reg = some r.value)
      ∧ ((∀ data, i ≠ .crc16 data) → (∀ reg, i ≠ .readReg reg) → r.value = 0)

/-! ## CRC -/

/-- R114: the check value, and its serialised form. -/
def Obligations.Crc16CheckValue : Prop :=
  crc16 [0x31#8, 0x32#8, 0x33#8, 0x34#8, 0x35#8, 0x36#8, 0x37#8, 0x38#8, 0x39#8] = 0x906E#16
    ∧ crcBytes [0x31#8, 0x32#8, 0x33#8, 0x34#8, 0x35#8, 0x36#8, 0x37#8, 0x38#8, 0x39#8]
        = [0x6E#8, 0x90#8]

/-- R113: the command with opcode 0x05 answers V of its data, whatever the state, and changes
nothing; on no bytes V is 0. -/
def Obligations.Crc16Answers : Prop :=
  (∀ (s : State) (c : Command) (rest : List Command), s.hostPort = c :: rest → c.op = 0x05#8 →
      step s = .next ({ s with hostPort := rest }.reply .ok (crc16 c.data).toNat))
    ∧ (∀ (s : State) (data : List Byte),
        exec (.crc16 data) s = .next (s.reply .ok (crc16 data).toNat))
    ∧ ∀ s : State, exec (.crc16 []) s = .next (s.reply .ok 0)

/-- The CRC is stored low byte first, and FINALIZE's reading of the two bytes gives V back (R63,
R112). -/
def Obligations.CrcStoredLowByteFirst : Prop :=
  ∀ d : List Byte, ∃ lo hi : Byte,
    crcBytes d = [lo, hi]
      ∧ lo.toNat = (crc16 d).toNat % 256
      ∧ hi.toNat = (crc16 d).toNat / 256
      ∧ fromLowHigh lo hi = crc16 d

/-- Two byte sequences that differ in exactly one byte have different CRCs: the function of R111
detects every corruption of a single byte. -/
def Obligations.CrcDetectsOneChangedByte : Prop :=
  ∀ (before after : List Byte) (b c : Byte), b ≠ c →
    crc16 (before ++ b :: after) ≠ crc16 (before ++ c :: after)

/-! ## SEND -/

/-- R180: NOT_LIVE, TX_OVERFLOW, and what a successful SEND stores; TXBUF at and above len + 2 and
everything else keep their values. -/
def Obligations.SendFollowsPseudocode : Prop :=
  ∀ (s : State) (linkId : LinkId) (p : List Byte),
    (s.live = false → exec (.send linkId p) s = .next (s.reply .notLive 0))
      ∧ (s.live = true → (s.cfgN.toNat < p.length ∨ p.length = 0 ∨ s.txSize ≠ 0) →
          exec (.send linkId p) s = .next (s.reply .txOverflow 0))
      ∧ (s.live = true → BuildOk s.build → s.cfgN.toNat + 2 ≤ s.build.bufCap →
          1 ≤ p.length → p.length ≤ s.cfgN.toNat → s.txSize = 0 →
          ∃ t, exec (.send linkId p) s = .next t
            ∧ t = { s with
                txBuf := t.txBuf
                txSize := t.txSize
                sentSize := 0
                txLinkId := if s.cfgKind = .message then linkId else s.txLinkId
                replies := s.replies ++ [{ status := .ok, value := 0 }] }
            ∧ t.txSize.toNat = p.length + 2
            ∧ (∀ i, i < p.length + 2 → t.txBuf.read i = (p ++ crcBytes p)[i]?)
            ∧ ∀ a, p.length + 2 ≤ a → t.txBuf.read a = s.txBuf.read a)

/-- R181: a SEND that answers any status but OK changes nothing and calls no collaborator. -/
def Obligations.FailedSendMutatesNothing : Prop :=
  ∀ (s t : State) (linkId : LinkId) (p : List Byte), exec (.send linkId p) s = .next t →
    t.replies ≠ s.replies ++ [{ status := .ok, value := 0 }] →
      ∃ st, st ≠ .ok ∧ t = s.reply st 0

/-! ## INIT, TEARDOWN, READ_REG and the reserved opcodes -/

/-- R220, R221, R222, R245, R271: a valid INIT, on a live instance or not, sets the configuration
and LIVE and zeroes every other register; an invalid one answers BAD_CONFIG and changes nothing. -/
def Obligations.InitFollowsPseudocode : Prop :=
  ∀ (s : State) (n : Size) (kind : LinkKind) (chunk : Size) (rxLink : LinkId),
    (1 ≤ n.toNat → n.toNat + 2 ≤ s.build.bufCap → (kind = .message → 1 ≤ chunk.toNat) →
        ∃ t, exec (.init n kind chunk rxLink) s = .next t
          ∧ t = { s with
              live := true
              cfgN := n
              cfgKind := kind
              cfgChunk := if kind = .message then chunk else 0
              rxLinkId := if kind = .message then rxLink else 0
              txState := .awaitingDelimiter
              rxState := .awaitingDelimiter
              txSize := 0
              sentSize := 0
              rxSize := 0
              txLinkId := 0
              statSof := 0
              statTxFrames := 0
              statRxFrames := 0
              txBuf := t.txBuf
              rxBuf := t.rxBuf
              replies := s.replies ++ [{ status := .ok, value := 0 }] })
      ∧ ((n.toNat < 1 ∨ s.build.bufCap < n.toNat + 2 ∨ (kind = .message ∧ chunk.toNat < 1)) →
          exec (.init n kind chunk rxLink) s = .next (s.reply .badConfig 0))

/-- R272: TEARDOWN gives the registers of the power-on state, in every state; the build and the
records of the ports stay. -/
def Obligations.TeardownGivesPowerOnState : Prop :=
  ∀ s : State, ∃ t, exec .teardown s = .next t
    ∧ t = { State.reset with
        build := s.build
        txBuf := t.txBuf
        rxBuf := t.rxBuf
        encOut := s.encOut
        hostPort := s.hostPort
        replies := s.replies ++ [{ status := .ok, value := 0 }]
        txReadyIn := s.txReadyIn
        rxReadyIn := s.rxReadyIn
        rxIn := s.rxIn
        draws := s.draws
        events := s.events }

/-- R224: READ_REG of each assigned number answers that register, zero-extended, in any state; a
reserved number answers BAD_REG; nothing changes. -/
def Obligations.ReadRegAnswersRegister : Prop :=
  ∀ s : State,
    exec (.readReg 0x00#8) s = .next (s.reply .ok (if s.live = true then 1 else 0))
      ∧ exec (.readReg 0x01#8) s = .next (s.reply .ok s.cfgN.toNat)
      ∧ exec (.readReg 0x02#8) s
          = .next (s.reply .ok (if s.cfgKind = .message then 1 else 0))
      ∧ exec (.readReg 0x03#8) s = .next (s.reply .ok s.cfgChunk.toNat)
      ∧ exec (.readReg 0x04#8) s
          = .next (s.reply .ok (match s.txState with
              | .awaitingDelimiter => 0 | .inFrame => 1 | .inEscape => 2))
      ∧ exec (.readReg 0x05#8) s
          = .next (s.reply .ok (match s.rxState with
              | .awaitingDelimiter => 0 | .inFrame => 1 | .inEscape => 2))
      ∧ exec (.readReg 0x06#8) s = .next (s.reply .ok s.txSize.toNat)
      ∧ exec (.readReg 0x07#8) s = .next (s.reply .ok s.sentSize.toNat)
      ∧ exec (.readReg 0x08#8) s = .next (s.reply .ok s.rxSize.toNat)
      ∧ exec (.readReg 0x09#8) s = .next (s.reply .ok s.statSof.toNat)
      ∧ exec (.readReg 0x0A#8) s = .next (s.reply .ok s.statTxFrames.toNat)
      ∧ exec (.readReg 0x0B#8) s = .next (s.reply .ok s.statRxFrames.toNat)
      ∧ exec (.readReg 0x0C#8) s = .next (s.reply .ok s.txLinkId)
      ∧ exec (.readReg 0x0D#8) s = .next (s.reply .ok s.rxLinkId)
      ∧ ∀ reg : Byte, 0x0E ≤ reg.toNat → exec (.readReg reg) s = .next (s.reply .badReg 0)

/-- R225: a command with a reserved opcode answers ILLEGAL_CMD and changes nothing, live or not. -/
def Obligations.ReservedOpcodeAnswersIllegalCmd : Prop :=
  (∀ (s : State) (c : Command) (rest : List Command), s.hostPort = c :: rest →
      (c.op = 0x00#8 ∨ 0x07 ≤ c.op.toNat) →
        step s = .next ({ s with hostPort := rest }.reply .illegalCmd 0))
    ∧ ∀ (s : State) (op : Byte), exec (.illegalCmd op) s = .next (s.reply .illegalCmd 0)

/-! ## The encoder -/

/-- R130: the five cases of ENC_STEP in the source's order, each with its whole effect, and each
as the row of the table that it is; an ENC_STEP with TX_SIZE = 0 faults. -/
def Obligations.EncStepFollowsCases : Prop :=
  ∀ s : State,
    (s.txSize = 0 → encStep s = .fault .encStepIdle)
      ∧ (s.txSize ≠ 0 → s.sentSize = s.txSize →
          ∃ t, encStep s = .next (t, true) ∧ exec .txClose s = .next t
            ∧ t = { s with
                sentSize := 0
                txSize := 0
                txState := .awaitingDelimiter
                statTxFrames := s.statTxFrames + 1
                encOut := s.encOut ++ [0x7E#8] })
      ∧ (s.txSize ≠ 0 → s.sentSize ≠ s.txSize →
          (s.txState = .awaitingDelimiter →
            ∃ t, encStep s = .next (t, false) ∧ exec .txOpen s = .next t
              ∧ t = { s with txState := .inFrame, encOut := s.encOut ++ [0x7E#8] })
          ∧ ∀ b : Byte, s.sentSize.toNat < s.build.bufCap →
              s.txBuf.read s.sentSize.toNat = some b →
            (s.txState = .inFrame → (b = 0x7E#8 ∨ b = 0x7D#8) →
              ∃ t, encStep s = .next (t, false) ∧ exec .txEscape s = .next t
                ∧ t = { s with txState := .inEscape, encOut := s.encOut ++ [0x7D#8] })
            ∧ (s.txState = .inFrame → b ≠ 0x7E#8 → b ≠ 0x7D#8 →
              ∃ t, encStep s = .next (t, false) ∧ exec .txLiteral s = .next t
                ∧ t = { s with sentSize := s.sentSize + 1, encOut := s.encOut ++ [b] })
            ∧ (s.txState = .inEscape →
              ∃ t, encStep s = .next (t, false) ∧ exec .txSubstitute s = .next t
                ∧ t = { s with
                    sentSize := s.sentSize + 1
                    txState := .inFrame
                    encOut := s.encOut ++ [if b = 0x7E#8 then 0x5E#8 else 0x5D#8] }))

/-- R131: every ENC_STEP returns exactly one byte. -/
def Obligations.OneByteEachEncStep : Prop :=
  ∀ (s t : State) (closed : Bool), encStep s = .next (t, closed) →
    ∃ u : Byte, t.encOut = s.encOut ++ [u]

/-- R133: an ENC_STEP closes the frame or raises the measure; so no frame takes more than
2 * TX_SIZE + 2 steps. -/
def Obligations.EncStepMakesProgress : Prop :=
  (∀ (s t : State) (closed : Bool), s.sentSize.toNat ≤ s.txSize.toNat →
      encStep s = .next (t, closed) → closed = true ∨ encMeasure s < encMeasure t)
    ∧ ∀ s : State, Inv s → s.txSize ≠ 0 →
        ∃ k t, k ≤ 2 * s.txSize.toNat + 2 ∧ encRun k s = .next t ∧ t.txSize = 0

/-- R132, R134: the ENC_STEPs of a frame return exactly `frame(p)`, in len(frame(p)) steps; the
frame stays pending until the last of them, which closes it (R184). -/
def Obligations.EncoderEmitsFrame : Prop :=
  ∀ (s : State) (p : List Byte), Loaded p s →
    encRun (frame p).length s = .next { s with
        txState := .awaitingDelimiter
        txSize := 0
        sentSize := 0
        statTxFrames := s.statTxFrames + 1
        encOut := s.encOut ++ frame p }
      ∧ ∀ k, k < (frame p).length → ∃ u, encRun k s = .next u ∧ u.txSize = s.txSize

/-- R136: the encoder reads and writes nothing of the receive side: whatever stands there, an
ENC_STEP does the same and leaves it alone. -/
def Obligations.EncoderIgnoresReceiveSide : Prop :=
  ∀ s v : State,
    encStep (s.withRxOf v) = andThen (encStep s) fun r => .next (r.1.withRxOf v, r.2)

/-! ## The wire format -/

/-- R85, R86: the length of a frame, and its bounds for a legal payload. -/
def Obligations.FrameLength : Prop :=
  ∀ p : List Byte, (frame p).length = p.length + escapes p + 4
    ∧ ∀ n : Nat, 1 ≤ p.length → p.length ≤ n → 5 ≤ (frame p).length ∧ (frame p).length ≤ 2 * n + 6

/-- R83: unstuffing inverts stuffing; a stuffed body holds no delimiter, and every escape in it is
followed by a substitute. -/
def Obligations.UnstuffInvertsStuff : Prop :=
  ∀ d : List Byte, unstuff (stuff d) = some d ∧ delim ∉ stuff d
    ∧ ∀ i, (stuff d)[i]? = some esc →
        (stuff d)[i + 1]? = some subDelim ∨ (stuff d)[i + 1]? = some subEsc

/-! ## The decoder -/

/-- R150, R152 with the table of R87: the ten byte classes of DEC_BYTE, each with its whole effect,
and each as the row of the table that it is. A stored byte goes to RXBUF[RX_SIZE] and to no other
index. -/
def Obligations.DecByteFollowsTable : Prop :=
  ∀ (s : State) (x : Byte),
    (s.rxState = .awaitingDelimiter →
      (x = 0x7E#8 → ∃ t, decByte x s = .next t ∧ exec .rxStart s = .next t
        ∧ t = { s with statSof := s.statSof + 1, rxState := .inFrame, rxSize := 0 })
      ∧ (x ≠ 0x7E#8 → decByte x s = .next s ∧ exec (.rxIgnore x) s = .next s))
    ∧ (s.rxState = .inFrame →
      (x = 0x7D#8 → ∃ t, decByte x s = .next t ∧ exec .rxEscape s = .next t
        ∧ t = { s with rxState := .inEscape })
      ∧ (x = 0x7E#8 → ∀ u, finalize s = .next u →
          ∃ t, decByte x s = .next t ∧ exec .rxEnd s = .next t
            ∧ t = { u with rxSize := 0, rxState := .awaitingDelimiter })
      ∧ (x ≠ 0x7D#8 → x ≠ 0x7E#8 → s.rxSize.toNat = s.cfgN.toNat + 2 →
          ∃ t, decByte x s = .next t ∧ exec (.rxOverflow x) s = .next t
            ∧ t = { s with rxSize := 0, rxState := .awaitingDelimiter })
      ∧ (x ≠ 0x7D#8 → x ≠ 0x7E#8 → s.rxSize.toNat < s.cfgN.toNat + 2 →
          s.cfgN.toNat + 2 ≤ s.build.bufCap →
          ∃ t, decByte x s = .next t ∧ exec (.rxData x) s = .next t
            ∧ t = { s with rxBuf := t.rxBuf, rxSize := s.rxSize + 1 }
            ∧ t.rxBuf.read s.rxSize.toNat = some x
            ∧ ∀ a, a ≠ s.rxSize.toNat → t.rxBuf.read a = s.rxBuf.read a))
    ∧ (s.rxState = .inEscape →
      (x = 0x5E#8 → s.rxSize.toNat < s.cfgN.toNat + 2 → s.cfgN.toNat + 2 ≤ s.build.bufCap →
          ∃ t, decByte x s = .next t ∧ exec .rxSubDelim s = .next t
            ∧ t = { s with rxBuf := t.rxBuf, rxSize := s.rxSize + 1, rxState := .inFrame }
            ∧ t.rxBuf.read s.rxSize.toNat = some 0x7E#8
            ∧ ∀ a, a ≠ s.rxSize.toNat → t.rxBuf.read a = s.rxBuf.read a)
      ∧ (x = 0x5D#8 → s.rxSize.toNat < s.cfgN.toNat + 2 → s.cfgN.toNat + 2 ≤ s.build.bufCap →
          ∃ t, decByte x s = .next t ∧ exec .rxSubEsc s = .next t
            ∧ t = { s with rxBuf := t.rxBuf, rxSize := s.rxSize + 1, rxState := .inFrame }
            ∧ t.rxBuf.read s.rxSize.toNat = some 0x7D#8
            ∧ ∀ a, a ≠ s.rxSize.toNat → t.rxBuf.read a = s.rxBuf.read a)
      ∧ ((x = 0x5E#8 ∨ x = 0x5D#8) → s.rxSize.toNat = s.cfgN.toNat + 2 →
          ∃ t, decByte x s = .next t ∧ exec (.rxFull x) s = .next t
            ∧ t = { s with rxSize := 0, rxState := .awaitingDelimiter })
      ∧ (x ≠ 0x5E#8 → x ≠ 0x5D#8 →
          ∃ t, decByte x s = .next t ∧ exec (.rxBadEscape x) s = .next t
            ∧ t = { s with rxSize := 0, rxState := .awaitingDelimiter }))

/-- R151: FINALIZE discards a frame of fewer than 3 bytes and one whose CRC does not match, and
delivers the payload of one whose CRC matches, once, counting it; and RX_END completes with it. -/
def Obligations.FinalizeChecksAndDelivers : Prop :=
  ∀ s : State,
    (s.rxSize.toNat < 3 → finalize s = .next s
      ∧ (s.rxState = .inFrame →
          exec .rxEnd s = .next { s with rxSize := 0, rxState := .awaitingDelimiter }))
    ∧ ∀ (p : List Byte) (lo hi : Byte), 1 ≤ p.length → p.length + 2 = s.rxSize.toNat →
        s.rxSize.toNat ≤ s.build.bufCap → Holds s.rxBuf (p ++ [lo, hi]) →
        (crc16 p = fromLowHigh lo hi →
          finalize s = .next { s with
            statRxFrames := s.statRxFrames + 1
            events := s.events ++ [.deliver p] }
          ∧ (s.rxState = .inFrame → exec .rxEnd s = .next { s with
              statRxFrames := s.statRxFrames + 1
              events := s.events ++ [.deliver p]
              rxSize := 0
              rxState := .awaitingDelimiter }))
        ∧ (crc16 p ≠ fromLowHigh lo hi →
          finalize s = .next s
          ∧ (s.rxState = .inFrame →
              exec .rxEnd s = .next { s with rxSize := 0, rxState := .awaitingDelimiter }))

/-- R155: a delimiter in IN_ESCAPE drops the frame without counting a start of frame, and the bytes
after it are ignored until the next delimiter. -/
def Obligations.DelimiterInEscapeDropsFrame : Prop :=
  ∀ (s : State) (bs : List Byte), s.rxState = .inEscape → delim ∉ bs →
    decBytes (delim :: bs) s = .next { s with rxSize := 0, rxState := .awaitingDelimiter }

/-- R154: at RX_SIZE = N + 2 an escape is still taken, and the byte after it drops the frame
whatever it is. -/
def Obligations.EscapeWhenFullDropsFrame : Prop :=
  ∀ (s : State) (x : Byte), s.rxState = .inFrame → s.rxSize.toNat = s.cfgN.toNat + 2 →
    decByte esc s = .next { s with rxState := .inEscape }
      ∧ decBytes [esc, x] s = .next { s with rxSize := 0, rxState := .awaitingDelimiter }

/-- R157, R159: from AWAITING_DELIMITER, the frame of every legal payload is decoded: the payload
is delivered exactly once, one start and one received frame are counted, and the decoder is in
AWAITING_DELIMITER again. -/
def Obligations.DecoderDeliversFrame : Prop :=
  ∀ (s : State) (p : List Byte), s.rxState = .awaitingDelimiter → Receivable p s →
    ∃ t, decBytes (frame p) s = .next t
      ∧ t = { s with
          rxBuf := t.rxBuf
          rxSize := 0
          statSof := s.statSof + 1
          statRxFrames := s.statRxFrames + 1
          events := s.events ++ [.deliver p] }

/-- R158: a decoder in IN_FRAME or IN_ESCAPE when a back-to-back stream of clean frames starts
loses all of them: nothing is delivered after the first byte, and it is left in IN_FRAME. -/
def Obligations.FramesOutOfPhaseAreLost : Prop :=
  ∀ (s : State) (p : List Byte) (ps : List (List Byte)), Inv s →
    s.rxState ≠ .awaitingDelimiter →
    ∃ u t, decByte delim s = .next u
      ∧ decBytes ((p :: ps).flatMap frame) s = .next t
      ∧ t.events = u.events ∧ t.statRxFrames = u.statRxFrames
      ∧ t.rxState = .inFrame ∧ t.rxSize = 0

/-- R162: the decoder reads and writes nothing of the transmit side: whatever stands there, a
DEC_BYTE and a FINALIZE do the same and leave it alone. -/
def Obligations.DecoderIgnoresTransmitSide : Prop :=
  ∀ (s v : State) (x : Byte),
    decByte x (s.withTxOf v) = andThen (decByte x s) (fun t => .next (t.withTxOf v))
      ∧ finalize (s.withTxOf v) = andThen (finalize s) (fun t => .next (t.withTxOf v))

/-- DEC_BYTE and ENC_STEP are the rows of the table that the state selects (R150, R130). The third
clause is the model's choice (assumption log 7, DESIGN CHOICE): the spec gives these rows no run by
themselves, and in the model a codec row by itself answers a next state only where it is selected. -/
def Obligations.CodecStepsAreTableRows : Prop :=
  (∀ (s : State) (x : Byte), decByte x s = exec (.ofRx x (rxClassOf x s)) s)
    ∧ (∀ s : State, encStep s = andThen (txCase s) fun c =>
        andThen (exec (.ofTx c) s) fun t => .next (t, c == .close))
    ∧ ∀ (i : Instr) (s t : State), i.isCommand = false → exec i s = .next t →
        (∃ x, i = .ofRx x (rxClassOf x s)) ∨ ∃ c, txCase s = .next c ∧ i = .ofTx c

/-! ## TASK -/

/-- R199: a TASK on an instance that is not live answers NOT_LIVE, queries nothing and changes
nothing. -/
def Obligations.TaskRefusedWhileNotLive : Prop :=
  ∀ s : State, s.live = false → exec .task s = .next (s.reply .notLive 0)

/-- A live TASK always completes with OK (R190), in every good state, as long as the received unit
keeps the contract of R252. -/
def Obligations.LiveTaskCompletes : Prop :=
  ∀ s : State, Inv s → s.live = true → NextUnitInContract s →
    ∃ t, exec .task s = .next t ∧ t.replies = s.replies ++ [{ status := .ok, value := 0 }]

/-- R190, R196: from every good live state, a TASK is the transmit sub-step, then the receive
sub-step from its result, then (OK, 0). The transmit sub-step leaves the receive side as it was, and
the receive sub-step leaves the transmit side as the transmit sub-step left it. -/
def Obligations.TaskRunsBothSubSteps : Prop :=
  ∀ s : State, Inv s → s.live = true → NextUnitInContract s →
    ∃ s1 s2, txSubStep s = .next s1 ∧ rxSubStep s1 = .next s2
      ∧ exec .task s = .next (s2.reply .ok 0)
      ∧ s1.withRxOf s = s1 ∧ s2.withTxOf s1 = s2

/-- The frame of TASK: the configuration, TX_LINK_ID, every byte of TXBUF and the commands still
to come are unchanged; a byte of RXBUF is unchanged unless DEC_BYTE stores to it. -/
def Obligations.TaskFrame : Prop :=
  ∀ s t : State, exec .task s = .next t →
    t = { s with
      txState := t.txState
      rxState := t.rxState
      txSize := t.txSize
      sentSize := t.sentSize
      rxSize := t.rxSize
      statSof := t.statSof
      statTxFrames := t.statTxFrames
      statRxFrames := t.statRxFrames
      rxBuf := t.rxBuf
      encOut := t.encOut
      replies := t.replies
      txReadyIn := t.txReadyIn
      rxReadyIn := t.rxReadyIn
      rxIn := t.rxIn
      draws := t.draws
      events := t.events }
    ∧ ∀ a, a ∉ taskStores s → t.rxBuf.read a = s.rxBuf.read a

/-- No rule indexes RXBUF at or above N + 2 (R60, R56): what a TASK stores lies below. -/
def Obligations.TaskStoresBelowCapacity : Prop :=
  ∀ (s : State) (a : Nat), Inv s → a ∈ taskStores s → a < s.cfgN.toNat + 2

/-- R192: a STREAM TASK whose link is ready to transmit runs one ENC_STEP of the pending frame, the
row it selects, and hands its byte to tx_send. -/
def Obligations.StreamTaskTransmitsOneByte : Prop :=
  ∀ (s : State) (txs rxs : List Bool), Inv s → s.live = true → s.cfgKind = .stream →
    s.txSize ≠ 0 → s.txReadyIn = true :: txs → s.rxReadyIn = false :: rxs →
    ∃ c u y, txCase s = .next c ∧ exec (.ofTx c) s = .next u ∧ u.encOut = [y]
      ∧ exec .task s = .next { u with
          encOut := []
          txReadyIn := txs
          rxReadyIn := rxs
          events := s.events ++ [.txReady true, .txSend (.byte y), .rxReady false]
          replies := s.replies ++ [{ status := .ok, value := 0 }] }

/-- R193: a MESSAGE TASK whose link is ready to transmit runs ENC_STEPs until the frame closes or
CHUNK bytes are collected, and hands them to tx_send as one unit tagged with TX_LINK_ID. -/
def Obligations.MessageTaskTransmitsOneUnit : Prop :=
  ∀ (s : State) (txs rxs : List Bool), Inv s → s.live = true → s.cfgKind = .message →
    s.txSize ≠ 0 → s.txReadyIn = true :: txs → s.rxReadyIn = false :: rxs →
    ∃ k u, 1 ≤ k ∧ k ≤ s.cfgChunk.toNat ∧ encRun k s = .next u ∧ u.encOut.length = k
      ∧ (k = s.cfgChunk.toNat ∨ u.txSize = 0)
      ∧ (∀ j v, j < k → encRun j s = .next v → v.txSize ≠ 0)
      ∧ exec .task s = .next { u with
          encOut := []
          txReadyIn := txs
          rxReadyIn := rxs
          events := s.events
            ++ [.txReady true, .txSend (.message s.txLinkId u.encOut), .rxReady false]
          replies := s.replies ++ [{ status := .ok, value := 0 }] }

/-- R194: a STREAM TASK whose link has a byte takes it and runs one DEC_BYTE on it. -/
def Obligations.StreamTaskReceivesOneByte : Prop :=
  ∀ (s : State) (x : Byte) (txs rxs : List Bool) (units : List LinkUnit), Inv s →
    s.live = true → s.cfgKind = .stream →
    s.txReadyIn = false :: txs → s.rxReadyIn = true :: rxs → s.rxIn = .byte x :: units →
    ∃ u, decByte x { s with
          txReadyIn := txs
          rxReadyIn := rxs
          rxIn := units
          events := s.events ++ [.txReady false, .rxReady true, .rxRecv (.byte x)] } = .next u
      ∧ exec .task s = .next (u.reply .ok 0)

/-- R195: a MESSAGE TASK decodes each byte of a unit with the identifier RX_LINK_ID, in order, and
discards a unit with another identifier whole, leaving the decoder as it was. -/
def Obligations.MessageTaskFiltersUnits : Prop :=
  ∀ (s : State) (id : LinkId) (bs : List Byte) (txs rxs : List Bool) (units : List LinkUnit),
    Inv s → s.live = true → s.cfgKind = .message → id < 2 ^ s.build.linkIdW →
    bs.length ≤ s.cfgChunk.toNat →
    s.txReadyIn = false :: txs → s.rxReadyIn = true :: rxs → s.rxIn = .message id bs :: units →
    (id ≠ s.rxLinkId → exec .task s = .next { s with
        txReadyIn := txs
        rxReadyIn := rxs
        rxIn := units
        events := s.events ++ [.txReady false, .rxReady true, .rxRecv (.message id bs)]
        replies := s.replies ++ [{ status := .ok, value := 0 }] })
    ∧ (id = s.rxLinkId →
      ∃ u, decBytes bs { s with
            txReadyIn := txs
            rxReadyIn := rxs
            rxIn := units
            events := s.events ++ [.txReady false, .rxReady true, .rxRecv (.message id bs)] }
          = .next u
        ∧ exec .task s = .next (u.reply .ok 0))

/-- R192, R194, R196: a STREAM TASK whose link is ready both ways runs one ENC_STEP of the pending
frame, the row it selects, hands its byte to tx_send, and then runs one DEC_BYTE on the received
byte from the state that this leaves. -/
def Obligations.StreamTaskTransmitsAndReceives : Prop :=
  ∀ (s : State) (x : Byte) (txs rxs : List Bool) (units : List LinkUnit), Inv s →
    s.live = true → s.cfgKind = .stream → s.txSize ≠ 0 →
    s.txReadyIn = true :: txs → s.rxReadyIn = true :: rxs → s.rxIn = .byte x :: units →
    ∃ c u y v, txCase s = .next c ∧ exec (.ofTx c) s = .next u ∧ u.encOut = [y]
      ∧ decByte x { u with
          encOut := []
          txReadyIn := txs
          rxReadyIn := rxs
          rxIn := units
          events := s.events
            ++ [.txReady true, .txSend (.byte y), .rxReady true, .rxRecv (.byte x)] } = .next v
      ∧ exec .task s = .next (v.reply .ok 0)

/-- R193, R195, R196: a MESSAGE TASK whose link is ready both ways sends one unit of the pending
frame, and then decodes each byte of the received unit from the state that this leaves; a unit with
another identifier than RX_LINK_ID is discarded whole. -/
def Obligations.MessageTaskTransmitsAndReceives : Prop :=
  ∀ (s : State) (id : LinkId) (bs : List Byte) (txs rxs : List Bool) (units : List LinkUnit),
    Inv s → s.live = true → s.cfgKind = .message → s.txSize ≠ 0 →
    id < 2 ^ s.build.linkIdW → bs.length ≤ s.cfgChunk.toNat →
    s.txReadyIn = true :: txs → s.rxReadyIn = true :: rxs → s.rxIn = .message id bs :: units →
    ∃ k u v, 1 ≤ k ∧ k ≤ s.cfgChunk.toNat ∧ encRun k s = .next u ∧ u.encOut.length = k
      ∧ (k = s.cfgChunk.toNat ∨ u.txSize = 0)
      ∧ (∀ j w, j < k → encRun j s = .next w → w.txSize ≠ 0)
      ∧ decBytes (if id = s.rxLinkId then bs else []) { u with
          encOut := []
          txReadyIn := txs
          rxReadyIn := rxs
          rxIn := units
          events := s.events
            ++ [.txReady true, .txSend (.message s.txLinkId u.encOut), .rxReady true,
              .rxRecv (.message id bs)] } = .next v
      ∧ exec .task s = .next (v.reply .ok 0)

/-- R48, R190, R191: a TASK with no frame pending or a link not ready to transmit, and nothing to
receive, leaves both codecs as they were; the queries are made all the same (R197). -/
def Obligations.TaskWithoutWorkHoldsState : Prop :=
  ∀ (s : State) (a : Bool) (txs rxs : List Bool), s.live = true →
    s.txReadyIn = a :: txs → s.rxReadyIn = false :: rxs → (a = false ∨ s.txSize = 0) →
    exec .task s = .next { s with
      txReadyIn := txs
      rxReadyIn := rxs
      events := s.events ++ [.txReady a, .rxReady false]
      replies := s.replies ++ [{ status := .ok, value := 0 }] }

/-- R70, R196, R197: the calls a live TASK makes, in their order: tx_ready; one tx_send exactly
where the answer was true and a frame is pending; rx_ready; where that was true one rx_recv and the
deliveries it causes. -/
def Obligations.TaskEventOrder : Prop :=
  ∀ s t : State, s.live = true → exec .task s = .next t →
    ∃ (a b : Bool) (sent recv : List Event),
      t.events = s.events ++ [.txReady a] ++ sent ++ [.rxReady b] ++ recv
        ∧ ((a = true ∧ s.txSize ≠ 0) → ∃ u, sent = [.txSend u])
        ∧ ((a = false ∨ s.txSize = 0) → sent = [])
        ∧ (b = false → recv = [])
        ∧ (b = true → ∃ (u : LinkUnit) (ds : List (List Byte)), recv = .rxRecv u :: ds.map .deliver)

/-- The model's choice (assumption log 12) for units outside the contract of R252: a TASK to which
the collaborator gives a MESSAGE unit of more than CHUNK bytes or with an identifier wider than
LINKID_W bits, or a unit of the other link variant, is refused by name. -/
def Obligations.UnitOutsideContractRefused : Prop :=
  ∀ (s : State) (u : LinkUnit) (txs rxs : List Bool) (units : List LinkUnit), s.live = true →
    ((∃ id bs, u = .message id bs ∧
        (s.cfgKind = .stream ∨ s.cfgChunk.toNat < bs.length ∨ 2 ^ s.build.linkIdW ≤ id))
      ∨ ∃ b, u = .byte b ∧ s.cfgKind = .message) →
    s.txReadyIn = false :: txs → s.rxReadyIn = true :: rxs → s.rxIn = u :: units →
    exec .task s = .refused (.unitOutsideContract u)

/-- R201: a SEND commutes with the receive sub-step, so one issued from a delivery has the result
of one issued right after the TASK. -/
def Obligations.SendCommutesWithReceive : Prop :=
  ∀ (s s1 s2 : State) (linkId : LinkId) (p : List Byte),
    exec (.send linkId p) s = .next s1 → rxSubStep s = .next s2 →
    ∃ t, rxSubStep s1 = .next t ∧ exec (.send linkId p) s2 = .next t

/-- R192, R284: a STREAM frame of L bytes takes exactly L TASKs in which tx_ready is true, and they
send exactly its bytes, one a unit. -/
def Obligations.StreamFrameTakesItsLengthInTasks : Prop :=
  ∀ (s : State) (p : List Byte) (txs rxs : List Bool), s.live = true → s.cfgKind = .stream →
    Loaded p s →
    s.txReadyIn = List.replicate (frame p).length true ++ txs →
    s.rxReadyIn = List.replicate (frame p).length false ++ rxs →
    (∃ t, taskRun (frame p).length s = .next t
        ∧ sentUnits t.events = sentUnits s.events ++ (frame p).map .byte
        ∧ t.txSize = 0 ∧ t.statTxFrames = s.statTxFrames + 1)
      ∧ ∀ k, k < (frame p).length → ∃ u, taskRun k s = .next u ∧ u.txSize ≠ 0

/-- R90, R193: a MESSAGE frame of L bytes takes exactly ceil(L / CHUNK) TASKs in which tx_ready is
true; the units sent carry its bytes in order, each tagged with TX_LINK_ID, and only the last may
be short. -/
def Obligations.MessageFrameTakesItsChunksInTasks : Prop :=
  ∀ (s : State) (p : List Byte) (k : Nat) (txs rxs : List Bool), s.live = true →
    s.cfgKind = .message → 1 ≤ s.cfgChunk.toNat → Loaded p s →
    k = ((frame p).length + s.cfgChunk.toNat - 1) / s.cfgChunk.toNat →
    s.txReadyIn = List.replicate k true ++ txs → s.rxReadyIn = List.replicate k false ++ rxs →
    (∃ (t : State) (us : List (List Byte)), taskRun k s = .next t
        ∧ sentUnits t.events = sentUnits s.events ++ us.map (.message s.txLinkId)
        ∧ us.length = k ∧ us.flatten = frame p
        ∧ (∀ u ∈ us, 1 ≤ u.length ∧ u.length ≤ s.cfgChunk.toNat)
        ∧ (∀ u ∈ us.dropLast, u.length = s.cfgChunk.toNat)
        ∧ t.txSize = 0 ∧ t.statTxFrames = s.statTxFrames + 1)
      ∧ ∀ j, j < k → ∃ u, taskRun j s = .next u ∧ u.txSize ≠ 0

/-- R135: STAT_TX_FRAMES rises by one in exactly the TASK that hands the closing delimiter to
tx_send, as the last byte of its unit. -/
def Obligations.SentFramesCountedAtClose : Prop :=
  ∀ s t : State, s.live = true → exec .task s = .next t →
    (t.txSize = s.txSize ∧ t.statTxFrames = s.statTxFrames)
      ∨ (s.txSize ≠ 0 ∧ t.txSize = 0 ∧ t.statTxFrames = s.statTxFrames + 1
          ∧ ∃ bs : List Byte, sentUnits t.events = sentUnits s.events
              ++ txUnits s.cfgKind s.txLinkId (bs ++ [delim]))

/-! ## Whole-machine rules -/

/-- R49: the configuration changes only at INIT and TEARDOWN. -/
def Obligations.ConfigurationFixedWhileLive : Prop :=
  ∀ (i : Instr) (s t : State), exec i s = .next t →
    (∀ n kind chunk rxLink, i ≠ .init n kind chunk rxLink) → i ≠ .teardown →
    t.cfgN = s.cfgN ∧ t.cfgKind = s.cfgKind ∧ t.cfgChunk = s.cfgChunk
      ∧ t.rxLinkId = s.rxLinkId ∧ t.live = s.live ∧ t.build = s.build

/-- R55: while a frame is pending TXBUF does not change; only SEND writes TXBUF (INIT and TEARDOWN
leave it unspecified). -/
def Obligations.PendingFrameStaysInTxbuf : Prop :=
  ∀ (i : Instr) (s t : State), exec i s = .next t →
    (∀ n kind chunk rxLink, i ≠ .init n kind chunk rxLink) → i ≠ .teardown →
    (s.txSize ≠ 0 → ∀ a, t.txBuf.read a = s.txBuf.read a)
      ∧ ((∀ linkId p, i ≠ .send linkId p) → ∀ a, t.txBuf.read a = s.txBuf.read a)

/-- R161, R32: STAT_RX_FRAMES rises by the number of deliveries, modulo 2^STAT_W, in every
instruction but INIT and TEARDOWN. -/
def Obligations.DeliveriesCounted : Prop :=
  ∀ (i : Instr) (s t : State), exec i s = .next t →
    (∀ n kind chunk rxLink, i ≠ .init n kind chunk rxLink) → i ≠ .teardown →
    ∃ ds, deliveries t.events = deliveries s.events ++ ds
      ∧ t.statRxFrames = s.statRxFrames + BitVec.ofNat 32 ds.length

/-- R47, R253: every payload delivered has a length from 1 to N. -/
def Obligations.DeliveredLengthWithinLimits : Prop :=
  ∀ s t : State, Inv s → step s = .next t →
    ∃ ds, deliveries t.events = deliveries s.events ++ ds
      ∧ ∀ p ∈ ds, 1 ≤ p.length ∧ p.length ≤ s.cfgN.toNat

/-- R71, R255: steps of two instances do not depend on each other's order, and neither touches the
other's state. It rests on the model's reading of several instances as a list of states (assumption
log 11, DEDUCED). -/
def Obligations.InstancesShareNothing : Prop :=
  ∀ (sys a b : List State) (i j : Nat), i ≠ j →
    stepInstance i sys = .next a → stepInstance j sys = .next b →
    (∃ c, stepInstance j a = .next c ∧ stepInstance i b = .next c)
      ∧ ∀ k, k ≠ i → a[k]? = sys[k]?
end

