-- ==== Sys2Proof/Laws/Decode.lean ====
section
/-! SUPPORT. The small lemmas of the decoder and the encoder: the width check, the kind bit, and
what each check of an instruction says. -/

namespace Sys2Proof

/-- The width check says what it is named for. -/
theorem fitsWidth_iff {w id : Nat} : fitsWidth w id = true ↔ id < 2 ^ w := by
  have := Nat.two_pow_pos w
  simp only [fitsWidth, Bool.or_eq_true, beq_iff_eq, decide_eq_true_eq]
  omega

@[simp] theorem linkKindOf_linkKindBit (k : LinkKind) : linkKindOf (linkKindBit k) = k := by
  cases k <;> rfl

@[simp] theorem linkKindBit_linkKindOf (b : BitVec 1) : linkKindBit (linkKindOf b) = b := by
  revert b
  decide

theorem reserved_iff {b : Byte} : reserved b = true ↔ b = delim ∨ b = esc := by
  simp [reserved]

/-- Decoding answers exactly the opcode's instruction, where no check fails. -/
theorem decode_eq_ok {w : Nat} {c : Command} {i : Instr} :
    decode w c = .ok i ↔ c.instr = i ∧ i.wellFormed w = true := by
  unfold decode Instr.wellFormed
  cases h : c.instr.reject w with
  | none =>
    simp only [Except.ok.injEq]
    constructor
    · rintro rfl
      simp [h]
    · rintro ⟨rfl, -⟩
      rfl
  | some r =>
    simp only [reduceCtorEq, false_iff, not_and]
    rintro rfl
    simp [h]

/-- A command never decodes to a codec row: those have no opcode (spec/41 R130, spec/42 R150). -/
theorem instr_isCommand (c : Command) : c.instr.isCommand = true := by
  unfold Command.instr
  split
  · rfl
  repeat' (split; · rfl)
  rfl

end Sys2Proof
end

