-- ==== Sys2Proof/Laws/Memory.lean ====
section
/-! SUPPORT. The laws of the buffer memories: a read after a write, and that every operation keeps
the canonical form. -/

namespace Sys2Proof.Machine

open Sys2Proof

@[simp] theorem Memory.read_nil (i : Nat) : Memory.read [] i = none := rfl

/-- A read of the index just written gives the byte written. -/
@[simp] theorem Memory.read_write_same (m : Memory) (i : Nat) (b : Byte) :
    (m.write i b).read i = some b := by
  induction m with
  | nil => simp [Memory.write, Memory.read]
  | cons cell rest ih =>
    obtain ⟨k, v⟩ := cell
    simp only [Memory.write]
    split
    · simp [Memory.read]
    · split
      · simp [Memory.read]
      · rename_i h1 h2
        simp [Memory.read, Ne.symm h2, ih]

/-- A write leaves every other index as it was. -/
theorem Memory.read_write_other (m : Memory) {i j : Nat} (b : Byte) (h : j ≠ i) :
    (m.write i b).read j = m.read j := by
  induction m with
  | nil => simp [Memory.write, Memory.read, Ne.symm h]
  | cons cell rest ih =>
    obtain ⟨k, v⟩ := cell
    simp only [Memory.write]
    split
    · simp [Memory.read, Ne.symm h]
    · split
      · rename_i h1 h2
        subst h2
        simp [Memory.read, Ne.symm h]
      · simp [Memory.read, ih]

/-- A read after a write, in one equation. -/
theorem Memory.read_write (m : Memory) (i j : Nat) (b : Byte) :
    (m.write i b).read j = if j = i then some b else m.read j := by
  split
  · rename_i h
    subst h
    exact m.read_write_same j b
  · exact m.read_write_other b ‹_›

theorem Memory.above_mono {lo lo' : Nat} {m : Memory} (h : lo' ≤ lo) (hm : m.above lo = true) :
    m.above lo' = true := by
  induction m with
  | nil => rfl
  | cons cell rest ih =>
    obtain ⟨k, v⟩ := cell
    simp only [Memory.above, Bool.and_eq_true, decide_eq_true_eq] at hm ⊢
    exact ⟨by omega, ih hm.2⟩

theorem Memory.above_write {lo i : Nat} {m : Memory} (b : Byte) (hi : lo < i)
    (hm : m.above lo = true) : (m.write i b).above lo = true := by
  induction m with
  | nil => simp [Memory.write, Memory.above, hi]
  | cons cell rest ih =>
    obtain ⟨k, v⟩ := cell
    simp only [Memory.above, Bool.and_eq_true, decide_eq_true_eq] at hm
    simp only [Memory.write]
    split
    · simp [Memory.above, hi, hm]
    · split
      · simp [Memory.above, hi, hm]
      · simp [Memory.above, hm, ih hm.2]

/-- A write keeps the canonical form. -/
theorem Memory.wf_write {m : Memory} (i : Nat) (b : Byte) (hm : m.wf = true) :
    (m.write i b).wf = true := by
  induction m with
  | nil => simp [Memory.write, Memory.wf, Memory.above]
  | cons cell rest ih =>
    obtain ⟨k, v⟩ := cell
    simp only [Memory.wf, Bool.and_eq_true] at hm
    simp only [Memory.write]
    split
    · rename_i h
      simp only [Memory.wf, Memory.above, Bool.and_eq_true, decide_eq_true_eq]
      exact ⟨⟨h, Memory.above_mono (Nat.le_of_lt h) hm.1⟩, hm⟩
    · split
      · rename_i h1 h2
        subst h2
        simpa [Memory.wf] using hm
      · rename_i h1 h2
        simp only [Memory.wf, Bool.and_eq_true]
        exact ⟨Memory.above_write b (by omega) hm.1, ih hm.2⟩

/-- Nothing at or below a bound that every index is above. -/
theorem Memory.read_of_above {lo i : Nat} {m : Memory} (h : i ≤ lo) (hm : m.above lo = true) :
    m.read i = none := by
  induction m with
  | nil => rfl
  | cons cell rest ih =>
    obtain ⟨k, v⟩ := cell
    simp only [Memory.above, Bool.and_eq_true, decide_eq_true_eq] at hm
    simp only [Memory.read]
    rw [if_neg (by omega)]
    exact ih hm.2

/-- Canonical memories that read alike are equal: equal contents are equal data. -/
theorem Memory.ext_read {m m' : Memory} (hm : m.wf = true) (hm' : m'.wf = true)
    (h : ∀ i, m.read i = m'.read i) : m = m' := by
  induction m generalizing m' with
  | nil =>
    cases m' with
    | nil => rfl
    | cons cell rest =>
      obtain ⟨k, v⟩ := cell
      have := h k
      simp [Memory.read] at this
  | cons cell rest ih =>
    obtain ⟨k, v⟩ := cell
    cases m' with
    | nil =>
      have := h k
      simp [Memory.read] at this
    | cons cell' rest' =>
      obtain ⟨k', v'⟩ := cell'
      simp only [Memory.wf, Bool.and_eq_true] at hm hm'
      have hk : k = k' := by
        rcases Nat.lt_trichotomy k k' with hlt | heq | hgt
        · have := h k
          simp only [Memory.read, if_true] at this
          rw [if_neg (by omega), Memory.read_of_above (Nat.le_of_lt hlt) hm'.1] at this
          cases this
        · exact heq
        · have := h k'
          simp only [Memory.read, if_true] at this
          rw [if_neg (by omega), Memory.read_of_above (Nat.le_of_lt hgt) hm.1] at this
          cases this
      subst hk
      have hv : v = v' := by
        have := h k
        simpa [Memory.read] using this
      subst hv
      have hrest : rest = rest' := by
        refine ih hm.2 hm'.2 fun i => ?_
        by_cases hi : i = k
        · subst hi
          rw [Memory.read_of_above (Nat.le_refl _) hm.1,
            Memory.read_of_above (Nat.le_refl _) hm'.1]
        · have := h i
          simpa [Memory.read, Ne.symm hi] using this
      rw [hrest]

end Sys2Proof.Machine
end

