-- ==== Sys2Proof/Laws/State.lean ====
section
/-! SUPPORT. What each named update of the state does to each field, so that no proof unfolds an
update: `State.reply`, `State.emit`, `State.cleared`, `configured`, `txSend`, the two readiness
queries and the two buffer updates. -/

namespace Sys2Proof.Machine

open Sys2Proof

section Reply
variable (s : State) (status : Status) (value : Nat)

@[simp] theorem reply_build : (s.reply status value).build = s.build := rfl

@[simp] theorem reply_live : (s.reply status value).live = s.live := rfl

@[simp] theorem reply_cfgN : (s.reply status value).cfgN = s.cfgN := rfl

@[simp] theorem reply_cfgKind : (s.reply status value).cfgKind = s.cfgKind := rfl

@[simp] theorem reply_cfgChunk : (s.reply status value).cfgChunk = s.cfgChunk := rfl

@[simp] theorem reply_rxLinkId : (s.reply status value).rxLinkId = s.rxLinkId := rfl

@[simp] theorem reply_txState : (s.reply status value).txState = s.txState := rfl

@[simp] theorem reply_rxState : (s.reply status value).rxState = s.rxState := rfl

@[simp] theorem reply_txSize : (s.reply status value).txSize = s.txSize := rfl

@[simp] theorem reply_sentSize : (s.reply status value).sentSize = s.sentSize := rfl

@[simp] theorem reply_rxSize : (s.reply status value).rxSize = s.rxSize := rfl

@[simp] theorem reply_txLinkId : (s.reply status value).txLinkId = s.txLinkId := rfl

@[simp] theorem reply_statSof : (s.reply status value).statSof = s.statSof := rfl

@[simp] theorem reply_statTxFrames : (s.reply status value).statTxFrames = s.statTxFrames := rfl

@[simp] theorem reply_statRxFrames : (s.reply status value).statRxFrames = s.statRxFrames := rfl

@[simp] theorem reply_txBuf : (s.reply status value).txBuf = s.txBuf := rfl

@[simp] theorem reply_rxBuf : (s.reply status value).rxBuf = s.rxBuf := rfl

@[simp] theorem reply_encOut : (s.reply status value).encOut = s.encOut := rfl

@[simp] theorem reply_hostPort : (s.reply status value).hostPort = s.hostPort := rfl

@[simp] theorem reply_replies : (s.reply status value).replies
    = s.replies ++ [{ status := status, value := value }] := rfl

@[simp] theorem reply_txReadyIn : (s.reply status value).txReadyIn = s.txReadyIn := rfl

@[simp] theorem reply_rxReadyIn : (s.reply status value).rxReadyIn = s.rxReadyIn := rfl

@[simp] theorem reply_rxIn : (s.reply status value).rxIn = s.rxIn := rfl

@[simp] theorem reply_draws : (s.reply status value).draws = s.draws := rfl

@[simp] theorem reply_events : (s.reply status value).events = s.events := rfl

end Reply

section Emit
variable (s : State) (e : Event)

@[simp] theorem emit_build : (s.emit e).build = s.build := rfl

@[simp] theorem emit_live : (s.emit e).live = s.live := rfl

@[simp] theorem emit_cfgN : (s.emit e).cfgN = s.cfgN := rfl

@[simp] theorem emit_cfgKind : (s.emit e).cfgKind = s.cfgKind := rfl

@[simp] theorem emit_cfgChunk : (s.emit e).cfgChunk = s.cfgChunk := rfl

@[simp] theorem emit_rxLinkId : (s.emit e).rxLinkId = s.rxLinkId := rfl

@[simp] theorem emit_txState : (s.emit e).txState = s.txState := rfl

@[simp] theorem emit_rxState : (s.emit e).rxState = s.rxState := rfl

@[simp] theorem emit_txSize : (s.emit e).txSize = s.txSize := rfl

@[simp] theorem emit_sentSize : (s.emit e).sentSize = s.sentSize := rfl

@[simp] theorem emit_rxSize : (s.emit e).rxSize = s.rxSize := rfl

@[simp] theorem emit_txLinkId : (s.emit e).txLinkId = s.txLinkId := rfl

@[simp] theorem emit_statSof : (s.emit e).statSof = s.statSof := rfl

@[simp] theorem emit_statTxFrames : (s.emit e).statTxFrames = s.statTxFrames := rfl

@[simp] theorem emit_statRxFrames : (s.emit e).statRxFrames = s.statRxFrames := rfl

@[simp] theorem emit_txBuf : (s.emit e).txBuf = s.txBuf := rfl

@[simp] theorem emit_rxBuf : (s.emit e).rxBuf = s.rxBuf := rfl

@[simp] theorem emit_encOut : (s.emit e).encOut = s.encOut := rfl

@[simp] theorem emit_hostPort : (s.emit e).hostPort = s.hostPort := rfl

@[simp] theorem emit_replies : (s.emit e).replies = s.replies := rfl

@[simp] theorem emit_txReadyIn : (s.emit e).txReadyIn = s.txReadyIn := rfl

@[simp] theorem emit_rxReadyIn : (s.emit e).rxReadyIn = s.rxReadyIn := rfl

@[simp] theorem emit_rxIn : (s.emit e).rxIn = s.rxIn := rfl

@[simp] theorem emit_draws : (s.emit e).draws = s.draws := rfl

@[simp] theorem emit_events : (s.emit e).events = s.events ++ [e] := rfl

end Emit

section Cleared
variable (s : State)

@[simp] theorem cleared_build : s.cleared.build = s.build := rfl

@[simp] theorem cleared_live : s.cleared.live = false := rfl

@[simp] theorem cleared_cfgN : s.cleared.cfgN = 0 := rfl

@[simp] theorem cleared_cfgKind : s.cleared.cfgKind = .stream := rfl

@[simp] theorem cleared_cfgChunk : s.cleared.cfgChunk = 0 := rfl

@[simp] theorem cleared_rxLinkId : s.cleared.rxLinkId = 0 := rfl

@[simp] theorem cleared_txState : s.cleared.txState = .awaitingDelimiter := rfl

@[simp] theorem cleared_rxState : s.cleared.rxState = .awaitingDelimiter := rfl

@[simp] theorem cleared_txSize : s.cleared.txSize = 0 := rfl

@[simp] theorem cleared_sentSize : s.cleared.sentSize = 0 := rfl

@[simp] theorem cleared_rxSize : s.cleared.rxSize = 0 := rfl

@[simp] theorem cleared_txLinkId : s.cleared.txLinkId = 0 := rfl

@[simp] theorem cleared_statSof : s.cleared.statSof = 0 := rfl

@[simp] theorem cleared_statTxFrames : s.cleared.statTxFrames = 0 := rfl

@[simp] theorem cleared_statRxFrames : s.cleared.statRxFrames = 0 := rfl

@[simp] theorem cleared_txBuf : s.cleared.txBuf = [] := rfl

@[simp] theorem cleared_rxBuf : s.cleared.rxBuf = [] := rfl

@[simp] theorem cleared_encOut : s.cleared.encOut = s.encOut := rfl

@[simp] theorem cleared_hostPort : s.cleared.hostPort = s.hostPort := rfl

@[simp] theorem cleared_replies : s.cleared.replies = s.replies := rfl

@[simp] theorem cleared_txReadyIn : s.cleared.txReadyIn = s.txReadyIn := rfl

@[simp] theorem cleared_rxReadyIn : s.cleared.rxReadyIn = s.rxReadyIn := rfl

@[simp] theorem cleared_rxIn : s.cleared.rxIn = s.rxIn := rfl

@[simp] theorem cleared_draws : s.cleared.draws = s.draws := rfl

@[simp] theorem cleared_events : s.cleared.events = s.events := rfl

end Cleared

section Configured
variable (n : Size) (kind : LinkKind) (chunk : Size) (rxLink : LinkId) (s : State)

@[simp] theorem configured_build :
    (configured n kind chunk rxLink s).build = s.build := rfl

@[simp] theorem configured_live :
    (configured n kind chunk rxLink s).live = true := rfl

@[simp] theorem configured_cfgN :
    (configured n kind chunk rxLink s).cfgN = n := rfl

@[simp] theorem configured_cfgKind :
    (configured n kind chunk rxLink s).cfgKind = kind := rfl

@[simp] theorem configured_cfgChunk :
    (configured n kind chunk rxLink s).cfgChunk = if kind = .message then chunk else 0 := rfl

@[simp] theorem configured_rxLinkId :
    (configured n kind chunk rxLink s).rxLinkId = if kind = .message then rxLink else 0 := rfl

@[simp] theorem configured_txState :
    (configured n kind chunk rxLink s).txState = .awaitingDelimiter := rfl

@[simp] theorem configured_rxState :
    (configured n kind chunk rxLink s).rxState = .awaitingDelimiter := rfl

@[simp] theorem configured_txSize :
    (configured n kind chunk rxLink s).txSize = 0 := rfl

@[simp] theorem configured_sentSize :
    (configured n kind chunk rxLink s).sentSize = 0 := rfl

@[simp] theorem configured_rxSize :
    (configured n kind chunk rxLink s).rxSize = 0 := rfl

@[simp] theorem configured_txLinkId :
    (configured n kind chunk rxLink s).txLinkId = 0 := rfl

@[simp] theorem configured_statSof :
    (configured n kind chunk rxLink s).statSof = 0 := rfl

@[simp] theorem configured_statTxFrames :
    (configured n kind chunk rxLink s).statTxFrames = 0 := rfl

@[simp] theorem configured_statRxFrames :
    (configured n kind chunk rxLink s).statRxFrames = 0 := rfl

@[simp] theorem configured_txBuf :
    (configured n kind chunk rxLink s).txBuf = [] := rfl

@[simp] theorem configured_rxBuf :
    (configured n kind chunk rxLink s).rxBuf = [] := rfl

@[simp] theorem configured_encOut :
    (configured n kind chunk rxLink s).encOut = s.encOut := rfl

@[simp] theorem configured_hostPort :
    (configured n kind chunk rxLink s).hostPort = s.hostPort := rfl

@[simp] theorem configured_replies :
    (configured n kind chunk rxLink s).replies = s.replies := rfl

@[simp] theorem configured_txReadyIn :
    (configured n kind chunk rxLink s).txReadyIn = s.txReadyIn := rfl

@[simp] theorem configured_rxReadyIn :
    (configured n kind chunk rxLink s).rxReadyIn = s.rxReadyIn := rfl

@[simp] theorem configured_rxIn :
    (configured n kind chunk rxLink s).rxIn = s.rxIn := rfl

@[simp] theorem configured_draws :
    (configured n kind chunk rxLink s).draws = s.draws := rfl

@[simp] theorem configured_events :
    (configured n kind chunk rxLink s).events = s.events := rfl

end Configured

section TxSend
variable (s : State)

@[simp] theorem txSend_build : (txSend s).build = s.build := rfl

@[simp] theorem txSend_live : (txSend s).live = s.live := rfl

@[simp] theorem txSend_cfgN : (txSend s).cfgN = s.cfgN := rfl

@[simp] theorem txSend_cfgKind : (txSend s).cfgKind = s.cfgKind := rfl

@[simp] theorem txSend_cfgChunk : (txSend s).cfgChunk = s.cfgChunk := rfl

@[simp] theorem txSend_rxLinkId : (txSend s).rxLinkId = s.rxLinkId := rfl

@[simp] theorem txSend_txState : (txSend s).txState = s.txState := rfl

@[simp] theorem txSend_rxState : (txSend s).rxState = s.rxState := rfl

@[simp] theorem txSend_txSize : (txSend s).txSize = s.txSize := rfl

@[simp] theorem txSend_sentSize : (txSend s).sentSize = s.sentSize := rfl

@[simp] theorem txSend_rxSize : (txSend s).rxSize = s.rxSize := rfl

@[simp] theorem txSend_txLinkId : (txSend s).txLinkId = s.txLinkId := rfl

@[simp] theorem txSend_statSof : (txSend s).statSof = s.statSof := rfl

@[simp] theorem txSend_statTxFrames : (txSend s).statTxFrames = s.statTxFrames := rfl

@[simp] theorem txSend_statRxFrames : (txSend s).statRxFrames = s.statRxFrames := rfl

@[simp] theorem txSend_txBuf : (txSend s).txBuf = s.txBuf := rfl

@[simp] theorem txSend_rxBuf : (txSend s).rxBuf = s.rxBuf := rfl

@[simp] theorem txSend_encOut : (txSend s).encOut = [] := rfl

@[simp] theorem txSend_hostPort : (txSend s).hostPort = s.hostPort := rfl

@[simp] theorem txSend_replies : (txSend s).replies = s.replies := rfl

@[simp] theorem txSend_txReadyIn : (txSend s).txReadyIn = s.txReadyIn := rfl

@[simp] theorem txSend_rxReadyIn : (txSend s).rxReadyIn = s.rxReadyIn := rfl

@[simp] theorem txSend_rxIn : (txSend s).rxIn = s.rxIn := rfl

@[simp] theorem txSend_draws : (txSend s).draws = s.draws := rfl

@[simp] theorem txSend_events : (txSend s).events = s.events ++ (txUnits s.cfgKind s.txLinkId s.encOut).map .txSend := rfl

end TxSend

section Queries
variable (s : State)

@[simp] theorem txReady_build : (txReady s).2.build = s.build := by
  unfold txReady; split <;> rfl

@[simp] theorem txReady_live : (txReady s).2.live = s.live := by
  unfold txReady; split <;> rfl

@[simp] theorem txReady_cfgN : (txReady s).2.cfgN = s.cfgN := by
  unfold txReady; split <;> rfl

@[simp] theorem txReady_cfgKind : (txReady s).2.cfgKind = s.cfgKind := by
  unfold txReady; split <;> rfl

@[simp] theorem txReady_cfgChunk : (txReady s).2.cfgChunk = s.cfgChunk := by
  unfold txReady; split <;> rfl

@[simp] theorem txReady_rxLinkId : (txReady s).2.rxLinkId = s.rxLinkId := by
  unfold txReady; split <;> rfl

@[simp] theorem txReady_txState : (txReady s).2.txState = s.txState := by
  unfold txReady; split <;> rfl

@[simp] theorem txReady_rxState : (txReady s).2.rxState = s.rxState := by
  unfold txReady; split <;> rfl

@[simp] theorem txReady_txSize : (txReady s).2.txSize = s.txSize := by
  unfold txReady; split <;> rfl

@[simp] theorem txReady_sentSize : (txReady s).2.sentSize = s.sentSize := by
  unfold txReady; split <;> rfl

@[simp] theorem txReady_rxSize : (txReady s).2.rxSize = s.rxSize := by
  unfold txReady; split <;> rfl

@[simp] theorem txReady_txLinkId : (txReady s).2.txLinkId = s.txLinkId := by
  unfold txReady; split <;> rfl

@[simp] theorem txReady_statSof : (txReady s).2.statSof = s.statSof := by
  unfold txReady; split <;> rfl

@[simp] theorem txReady_statTxFrames : (txReady s).2.statTxFrames = s.statTxFrames := by
  unfold txReady; split <;> rfl

@[simp] theorem txReady_statRxFrames : (txReady s).2.statRxFrames = s.statRxFrames := by
  unfold txReady; split <;> rfl

@[simp] theorem txReady_txBuf : (txReady s).2.txBuf = s.txBuf := by
  unfold txReady; split <;> rfl

@[simp] theorem txReady_rxBuf : (txReady s).2.rxBuf = s.rxBuf := by
  unfold txReady; split <;> rfl

@[simp] theorem txReady_encOut : (txReady s).2.encOut = s.encOut := by
  unfold txReady; split <;> rfl

@[simp] theorem txReady_hostPort : (txReady s).2.hostPort = s.hostPort := by
  unfold txReady; split <;> rfl

@[simp] theorem txReady_replies : (txReady s).2.replies = s.replies := by
  unfold txReady; split <;> rfl

@[simp] theorem txReady_rxReadyIn : (txReady s).2.rxReadyIn = s.rxReadyIn := by
  unfold txReady; split <;> rfl

@[simp] theorem txReady_rxIn : (txReady s).2.rxIn = s.rxIn := by
  unfold txReady; split <;> rfl

@[simp] theorem txReady_events :
    (txReady s).2.events = s.events ++ [.txReady (txReady s).1] := by
  unfold txReady; split <;> rfl

@[simp] theorem rxReady_build : (rxReady s).2.build = s.build := by
  unfold rxReady; split <;> rfl

@[simp] theorem rxReady_live : (rxReady s).2.live = s.live := by
  unfold rxReady; split <;> rfl

@[simp] theorem rxReady_cfgN : (rxReady s).2.cfgN = s.cfgN := by
  unfold rxReady; split <;> rfl

@[simp] theorem rxReady_cfgKind : (rxReady s).2.cfgKind = s.cfgKind := by
  unfold rxReady; split <;> rfl

@[simp] theorem rxReady_cfgChunk : (rxReady s).2.cfgChunk = s.cfgChunk := by
  unfold rxReady; split <;> rfl

@[simp] theorem rxReady_rxLinkId : (rxReady s).2.rxLinkId = s.rxLinkId := by
  unfold rxReady; split <;> rfl

@[simp] theorem rxReady_txState : (rxReady s).2.txState = s.txState := by
  unfold rxReady; split <;> rfl

@[simp] theorem rxReady_rxState : (rxReady s).2.rxState = s.rxState := by
  unfold rxReady; split <;> rfl

@[simp] theorem rxReady_txSize : (rxReady s).2.txSize = s.txSize := by
  unfold rxReady; split <;> rfl

@[simp] theorem rxReady_sentSize : (rxReady s).2.sentSize = s.sentSize := by
  unfold rxReady; split <;> rfl

@[simp] theorem rxReady_rxSize : (rxReady s).2.rxSize = s.rxSize := by
  unfold rxReady; split <;> rfl

@[simp] theorem rxReady_txLinkId : (rxReady s).2.txLinkId = s.txLinkId := by
  unfold rxReady; split <;> rfl

@[simp] theorem rxReady_statSof : (rxReady s).2.statSof = s.statSof := by
  unfold rxReady; split <;> rfl

@[simp] theorem rxReady_statTxFrames : (rxReady s).2.statTxFrames = s.statTxFrames := by
  unfold rxReady; split <;> rfl

@[simp] theorem rxReady_statRxFrames : (rxReady s).2.statRxFrames = s.statRxFrames := by
  unfold rxReady; split <;> rfl

@[simp] theorem rxReady_txBuf : (rxReady s).2.txBuf = s.txBuf := by
  unfold rxReady; split <;> rfl

@[simp] theorem rxReady_rxBuf : (rxReady s).2.rxBuf = s.rxBuf := by
  unfold rxReady; split <;> rfl

@[simp] theorem rxReady_encOut : (rxReady s).2.encOut = s.encOut := by
  unfold rxReady; split <;> rfl

@[simp] theorem rxReady_hostPort : (rxReady s).2.hostPort = s.hostPort := by
  unfold rxReady; split <;> rfl

@[simp] theorem rxReady_replies : (rxReady s).2.replies = s.replies := by
  unfold rxReady; split <;> rfl

@[simp] theorem rxReady_txReadyIn : (rxReady s).2.txReadyIn = s.txReadyIn := by
  unfold rxReady; split <;> rfl

@[simp] theorem rxReady_rxIn : (rxReady s).2.rxIn = s.rxIn := by
  unfold rxReady; split <;> rfl

@[simp] theorem rxReady_events :
    (rxReady s).2.events = s.events ++ [.rxReady (rxReady s).1] := by
  unfold rxReady; split <;> rfl

end Queries

section Buffers
variable (s : State) (m : Memory)

@[simp] theorem setBuffer_tx_build : (s.setBuffer .tx m).build = s.build := rfl

@[simp] theorem setBuffer_tx_live : (s.setBuffer .tx m).live = s.live := rfl

@[simp] theorem setBuffer_tx_cfgN : (s.setBuffer .tx m).cfgN = s.cfgN := rfl

@[simp] theorem setBuffer_tx_cfgKind : (s.setBuffer .tx m).cfgKind = s.cfgKind := rfl

@[simp] theorem setBuffer_tx_cfgChunk : (s.setBuffer .tx m).cfgChunk = s.cfgChunk := rfl

@[simp] theorem setBuffer_tx_rxLinkId : (s.setBuffer .tx m).rxLinkId = s.rxLinkId := rfl

@[simp] theorem setBuffer_tx_txState : (s.setBuffer .tx m).txState = s.txState := rfl

@[simp] theorem setBuffer_tx_rxState : (s.setBuffer .tx m).rxState = s.rxState := rfl

@[simp] theorem setBuffer_tx_txSize : (s.setBuffer .tx m).txSize = s.txSize := rfl

@[simp] theorem setBuffer_tx_sentSize : (s.setBuffer .tx m).sentSize = s.sentSize := rfl

@[simp] theorem setBuffer_tx_rxSize : (s.setBuffer .tx m).rxSize = s.rxSize := rfl

@[simp] theorem setBuffer_tx_txLinkId : (s.setBuffer .tx m).txLinkId = s.txLinkId := rfl

@[simp] theorem setBuffer_tx_statSof : (s.setBuffer .tx m).statSof = s.statSof := rfl

@[simp] theorem setBuffer_tx_statTxFrames : (s.setBuffer .tx m).statTxFrames = s.statTxFrames := rfl

@[simp] theorem setBuffer_tx_statRxFrames : (s.setBuffer .tx m).statRxFrames = s.statRxFrames := rfl

@[simp] theorem setBuffer_tx_txBuf : (s.setBuffer .tx m).txBuf = m := rfl

@[simp] theorem setBuffer_tx_rxBuf : (s.setBuffer .tx m).rxBuf = s.rxBuf := rfl

@[simp] theorem setBuffer_tx_encOut : (s.setBuffer .tx m).encOut = s.encOut := rfl

@[simp] theorem setBuffer_tx_hostPort : (s.setBuffer .tx m).hostPort = s.hostPort := rfl

@[simp] theorem setBuffer_tx_replies : (s.setBuffer .tx m).replies = s.replies := rfl

@[simp] theorem setBuffer_tx_txReadyIn : (s.setBuffer .tx m).txReadyIn = s.txReadyIn := rfl

@[simp] theorem setBuffer_tx_rxReadyIn : (s.setBuffer .tx m).rxReadyIn = s.rxReadyIn := rfl

@[simp] theorem setBuffer_tx_rxIn : (s.setBuffer .tx m).rxIn = s.rxIn := rfl

@[simp] theorem setBuffer_tx_draws : (s.setBuffer .tx m).draws = s.draws := rfl

@[simp] theorem setBuffer_tx_events : (s.setBuffer .tx m).events = s.events := rfl

@[simp] theorem setBuffer_rx_build : (s.setBuffer .rx m).build = s.build := rfl

@[simp] theorem setBuffer_rx_live : (s.setBuffer .rx m).live = s.live := rfl

@[simp] theorem setBuffer_rx_cfgN : (s.setBuffer .rx m).cfgN = s.cfgN := rfl

@[simp] theorem setBuffer_rx_cfgKind : (s.setBuffer .rx m).cfgKind = s.cfgKind := rfl

@[simp] theorem setBuffer_rx_cfgChunk : (s.setBuffer .rx m).cfgChunk = s.cfgChunk := rfl

@[simp] theorem setBuffer_rx_rxLinkId : (s.setBuffer .rx m).rxLinkId = s.rxLinkId := rfl

@[simp] theorem setBuffer_rx_txState : (s.setBuffer .rx m).txState = s.txState := rfl

@[simp] theorem setBuffer_rx_rxState : (s.setBuffer .rx m).rxState = s.rxState := rfl

@[simp] theorem setBuffer_rx_txSize : (s.setBuffer .rx m).txSize = s.txSize := rfl

@[simp] theorem setBuffer_rx_sentSize : (s.setBuffer .rx m).sentSize = s.sentSize := rfl

@[simp] theorem setBuffer_rx_rxSize : (s.setBuffer .rx m).rxSize = s.rxSize := rfl

@[simp] theorem setBuffer_rx_txLinkId : (s.setBuffer .rx m).txLinkId = s.txLinkId := rfl

@[simp] theorem setBuffer_rx_statSof : (s.setBuffer .rx m).statSof = s.statSof := rfl

@[simp] theorem setBuffer_rx_statTxFrames : (s.setBuffer .rx m).statTxFrames = s.statTxFrames := rfl

@[simp] theorem setBuffer_rx_statRxFrames : (s.setBuffer .rx m).statRxFrames = s.statRxFrames := rfl

@[simp] theorem setBuffer_rx_txBuf : (s.setBuffer .rx m).txBuf = s.txBuf := rfl

@[simp] theorem setBuffer_rx_rxBuf : (s.setBuffer .rx m).rxBuf = m := rfl

@[simp] theorem setBuffer_rx_encOut : (s.setBuffer .rx m).encOut = s.encOut := rfl

@[simp] theorem setBuffer_rx_hostPort : (s.setBuffer .rx m).hostPort = s.hostPort := rfl

@[simp] theorem setBuffer_rx_replies : (s.setBuffer .rx m).replies = s.replies := rfl

@[simp] theorem setBuffer_rx_txReadyIn : (s.setBuffer .rx m).txReadyIn = s.txReadyIn := rfl

@[simp] theorem setBuffer_rx_rxReadyIn : (s.setBuffer .rx m).rxReadyIn = s.rxReadyIn := rfl

@[simp] theorem setBuffer_rx_rxIn : (s.setBuffer .rx m).rxIn = s.rxIn := rfl

@[simp] theorem setBuffer_rx_draws : (s.setBuffer .rx m).draws = s.draws := rfl

@[simp] theorem setBuffer_rx_events : (s.setBuffer .rx m).events = s.events := rfl

@[simp] theorem buffer_tx : s.buffer .tx = s.txBuf := rfl

@[simp] theorem buffer_rx : s.buffer .rx = s.rxBuf := rfl

@[simp] theorem buffer_setBuffer_same (b : Buffer) : (s.setBuffer b m).buffer b = m := by
  cases b <;> rfl

@[simp] theorem setBuffer_build (b : Buffer) : (s.setBuffer b m).build = s.build := by
  cases b <;> rfl

@[simp] theorem setBuffer_setBuffer (b : Buffer) (m' : Memory) :
    (s.setBuffer b m).setBuffer b m' = s.setBuffer b m' := by
  cases b <;> rfl

@[simp] theorem setBuffer_buffer (b : Buffer) : s.setBuffer b (s.buffer b) = s := by
  cases b <;> rfl

end Buffers

/-- A readiness query with an answer listed: the answer is taken from the list (spec/10 R43). -/
theorem txReady_cons {s : State} {a : Bool} {rest : List Bool} (h : s.txReadyIn = a :: rest) :
    txReady s
      = (a, { s with txReadyIn := rest, events := s.events ++ [.txReady a] }) := by
  simp [txReady, h, State.emit]

/-- The same for rx_ready (spec/10 R44). -/
theorem rxReady_cons {s : State} {a : Bool} {rest : List Bool} (h : s.rxReadyIn = a :: rest) :
    rxReady s
      = (a, { s with rxReadyIn := rest, events := s.events ++ [.rxReady a] }) := by
  simp [rxReady, h, State.emit]

end Sys2Proof.Machine
end

