-- ==== Sys2Proof/Laws/Ops.lean ====
section
/-! SUPPORT. What each shared operation can do, said once: the chaining of parts, the accesses to
the buffers, and the receive primitive. -/

namespace Sys2Proof.Machine

open Sys2Proof

/-! ## Chaining -/

section Chain
variable {α β γ : Type}

@[simp] theorem andThen_next (a : α) (f : α → Host.Outcome β Fault Refusal) :
    andThen (.next a) f = f a := rfl

@[simp] theorem andThen_fault (r : Fault) (f : α → Host.Outcome β Fault Refusal) :
    andThen (.fault r) f = .fault r := rfl

@[simp] theorem andThen_refused (r : Refusal) (f : α → Host.Outcome β Fault Refusal) :
    andThen (.refused r) f = .refused r := rfl

/-- A chain answers next exactly where both parts do. -/
theorem andThen_eq_next {o : Host.Outcome α Fault Refusal}
    {f : α → Host.Outcome β Fault Refusal} {b : β} :
    andThen o f = .next b ↔ ∃ a, o = .next a ∧ f a = .next b := by
  cases o <;> simp

/-- A chain faults exactly where its first part does, or its second after it. -/
theorem andThen_eq_fault {o : Host.Outcome α Fault Refusal}
    {f : α → Host.Outcome β Fault Refusal} {r : Fault} :
    andThen o f = .fault r ↔ o = .fault r ∨ ∃ a, o = .next a ∧ f a = .fault r := by
  cases o <;> simp

theorem andThen_assoc (o : Host.Outcome α Fault Refusal)
    (f : α → Host.Outcome β Fault Refusal) (g : β → Host.Outcome γ Fault Refusal) :
    andThen (andThen o f) g = andThen o fun a => andThen (f a) g := by
  cases o <;> rfl

end Chain

/-! ## Buffer accesses -/

/-- A read of a buffer byte answers exactly the written byte of an existing index. -/
theorem readByte_eq_next {b : Buffer} {i : Nat} {s : State} {v : Byte} :
    readByte b i s = .next v ↔ i < s.build.bufCap ∧ (s.buffer b).read i = some v := by
  unfold readByte
  split
  · rename_i h
    split <;> simp_all
  · rename_i h
    simp [h]

/-- A read is never refused. -/
theorem readByte_not_refused {b : Buffer} {i : Nat} {s : State} {r : Refusal} :
    readByte b i s ≠ .refused r := by
  unfold readByte
  split
  · split <;> simp
  · simp

/-- A write to a buffer byte answers exactly on an existing index. -/
theorem writeByte_eq_next {b : Buffer} {i : Nat} {v : Byte} {s t : State} :
    writeByte b i v s = .next t
      ↔ i < s.build.bufCap ∧ t = s.setBuffer b ((s.buffer b).write i v) := by
  unfold writeByte
  split
  · rename_i h
    simp [h, eq_comm]
  · rename_i h
    simp [h]

/-- Reading a run of bytes answers exactly the written bytes of existing indices. -/
theorem readBytes_eq_next {b : Buffer} {s : State} {count i : Nat} {vs : List Byte} :
    readBytes b i s count = .next vs
      ↔ vs.length = count
        ∧ ∀ k, k < count → i + k < s.build.bufCap ∧ (s.buffer b).read (i + k) = vs[k]? := by
  induction count generalizing i vs with
  | zero =>
    simp only [readBytes, List.length_eq_zero_iff]
    constructor
    · rintro ⟨⟩
      simp
    · rintro ⟨rfl, -⟩
      rfl
  | succ count ih =>
    simp only [readBytes, andThen_eq_next, readByte_eq_next]
    constructor
    · rintro ⟨v, ⟨hi, hv⟩, vs', h', ⟨⟩⟩
      obtain ⟨hlen, hread⟩ := ih.1 h'
      refine ⟨by simp [hlen], fun k hk => ?_⟩
      cases k with
      | zero => simp [hi, hv]
      | succ k =>
        have := hread k (by omega)
        rw [show i + (k + 1) = i + 1 + k by omega]
        simpa using this
    · rintro ⟨hlen, hread⟩
      cases vs with
      | nil => simp at hlen
      | cons v vs' =>
        have h0 := hread 0 (by omega)
        refine ⟨v, by simpa using h0, vs', ih.2 ⟨by simpa using hlen, fun k hk => ?_⟩, rfl⟩
        have := hread (k + 1) (by omega)
        rw [show i + (k + 1) = i + 1 + k by omega] at this
        simpa using this

/-- Writing a run of bytes inside the buffer puts each at its index and leaves the rest of the
buffer, and the rest of the state, as it was. -/
theorem writeBytes_inside {b : Buffer} {vs : List Byte} {i : Nat} {s : State}
    (h : i + vs.length ≤ s.build.bufCap) :
    ∃ m, writeBytes b i vs s = .next (s.setBuffer b m)
      ∧ (∀ k, k < vs.length → m.read (i + k) = vs[k]?)
      ∧ (∀ a, a < i ∨ i + vs.length ≤ a → m.read a = (s.buffer b).read a)
      ∧ ((s.buffer b).wf = true → m.wf = true) := by
  induction vs generalizing i s with
  | nil => exact ⟨s.buffer b, by simp [writeBytes], by simp, by simp, id⟩
  | cons v rest ih =>
    simp only [List.length_cons] at h ⊢
    have hw : writeByte b i v s = .next (s.setBuffer b ((s.buffer b).write i v)) :=
      writeByte_eq_next.2 ⟨by omega, rfl⟩
    obtain ⟨m, hm, hin, hout, hwf⟩ :=
      ih (i := i + 1) (s := s.setBuffer b ((s.buffer b).write i v)) (by simp; omega)
    refine ⟨m, ?_, fun k hk => ?_, fun a ha => ?_, fun hw' => ?_⟩
    · simp [writeBytes, hw, hm]
    · cases k with
      | zero =>
        rw [Nat.add_zero, hout i (by omega)]
        simp
      | succ k =>
        rw [show i + (k + 1) = i + 1 + k by omega, hin k (by omega)]
        simp
    · rw [hout a (by omega)]
      simp only [buffer_setBuffer_same]
      exact Memory.read_write_other _ _ (by omega)
    · exact hwf (by simpa using Memory.wf_write i v hw')

/-! ## The receive primitive -/

/-- `rx_recv` with a unit listed that keeps the contract (spec/60 R252). -/
theorem rxRecv_cons {s : State} {u : LinkUnit} {rest : List LinkUnit} (h : s.rxIn = u :: rest)
    (hc : unitInContract s u = true) :
    rxRecv s = .next (u, { s with rxIn := rest, events := s.events ++ [.rxRecv u] }) := by
  simp [rxRecv, h, hc, State.emit]

/-- Every unit `rx_recv` gives keeps the contract, a free one too, and the call changes nothing
but the record of the port. -/
theorem rxRecv_spec {s : State} {r : LinkUnit × State} (h : rxRecv s = .next r) :
    unitInContract s r.1 = true
      ∧ r.2 = { s with
          rxIn := s.rxIn.tail
          draws := if s.rxIn = [] then s.draws + 1 else s.draws
          events := s.events ++ [.rxRecv r.1] } := by
  unfold rxRecv at h
  split at h
  · rename_i u rest hu
    split at h
    · cases h
      simp_all [State.emit]
    · cases h
  · rename_i hu
    cases h
    refine ⟨?_, by simp [hu, State.emit]⟩
    cases hk : s.cfgKind with
    | stream => simp [freeUnit, unitInContract, hk]
    | message =>
      have := Nat.mod_lt (Config.freeLinkId s.draws)
        (Nat.two_pow_pos s.build.linkIdW)
      simp [freeUnit, unitInContract, hk, fitsWidth, this]

end Sys2Proof.Machine
end

