-- ==== Sys2Proof/Laws/Codec.lean ====
section
/-! SUPPORT. What the encoder and the decoder can do, said once: the case an ENC_STEP selects, what
each case and each byte class leaves, FINALIZE, and runs of DEC_BYTEs. -/

namespace Sys2Proof.Machine

open Sys2Proof

/-! ## Encoder -/

/-- The case of an ENC_STEP, when it has one: a frame is pending, and the case is that of the
encoder's state, looking at TXBUF[SENT_SIZE] only in IN_FRAME with bytes left (spec/41 R130). -/
theorem txCase_eq_next {s : State} {c : TxCase} (h : txCase s = .next c) :
    s.txSize ≠ 0
      ∧ ((s.sentSize = s.txSize ∧ c = .close)
        ∨ (s.sentSize ≠ s.txSize ∧ s.txState = .awaitingDelimiter ∧ c = .opening)
        ∨ (s.sentSize ≠ s.txSize ∧ s.txState = .inFrame
            ∧ ∃ b, readByte .tx s.sentSize.toNat s = .next b
              ∧ c = if reserved b then .escape else .literal)
        ∨ (s.sentSize ≠ s.txSize ∧ s.txState = .inEscape ∧ c = .substitute)) := by
  unfold txCase at h
  split at h
  · cases h
  · rename_i h0
    refine ⟨h0, ?_⟩
    split at h
    · rename_i h1
      obtain ⟨b, hb, hc⟩ := andThen_eq_next.1 h
      exact .inr (.inr (.inl ⟨h1.1, h1.2, b, hb, by simpa [txCaseOf] using hc.symm⟩))
    · rename_i h1
      by_cases he : s.sentSize = s.txSize
      · exact .inl ⟨he, by simpa [he, txCaseOf] using h.symm⟩
      · have hb : (s.sentSize == s.txSize) = false := by simpa using he
        rw [hb] at h
        cases hs : s.txState with
        | awaitingDelimiter =>
          exact .inr (.inl ⟨he, rfl, by simpa [hs, txCaseOf] using h.symm⟩)
        | inFrame => exact absurd ⟨he, hs⟩ h1
        | inEscape =>
          exact .inr (.inr (.inr ⟨he, rfl, by simpa [hs, txCaseOf] using h.symm⟩))

/-- A row of the encoder answers next exactly where ENC_STEP selects it, with what the case does. -/
theorem runTxRow_eq_next {c : TxCase} {s t : State} :
    runTxRow c s = .next t ↔ txCase s = .next c ∧ txAct c s = .next t := by
  unfold runTxRow
  rw [andThen_eq_next]
  constructor
  · rintro ⟨c', hc, h⟩
    split at h
    · rename_i e
      subst e
      exact ⟨hc, h⟩
    · cases h
  · rintro ⟨hc, h⟩
    exact ⟨c, hc, by simpa using h⟩

/-- What an ENC_STEP's case can change: the encoder's own registers and its output; nothing of the
decoder, no buffer and no port (spec/41 R136). -/
theorem txAct_frame {c : TxCase} {s t : State} (h : txAct c s = .next t) :
    ∃ u, t = { s with
      txState := t.txState
      txSize := t.txSize
      sentSize := t.sentSize
      statTxFrames := t.statTxFrames
      encOut := s.encOut ++ [u] } := by
  cases c with
  | close => cases h; exact ⟨_, rfl⟩
  | opening => cases h; exact ⟨_, rfl⟩
  | escape => cases h; exact ⟨_, rfl⟩
  | literal =>
    obtain ⟨b, -, hb⟩ := andThen_eq_next.1 h
    cases hb
    exact ⟨_, rfl⟩
  | substitute =>
    obtain ⟨b, -, hb⟩ := andThen_eq_next.1 h
    cases hb
    exact ⟨_, rfl⟩

/-- An ENC_STEP answers next exactly through the case it selects (spec/41 R130). -/
theorem encStep_eq_next {s t : State} {closed : Bool} :
    encStep s = .next (t, closed)
      ↔ ∃ c, txCase s = .next c ∧ txAct c s = .next t ∧ closed = (c == .close) := by
  unfold encStep
  rw [andThen_eq_next]
  constructor
  · rintro ⟨c, hc, h⟩
    obtain ⟨t', ht, he⟩ := andThen_eq_next.1 h
    cases he
    exact ⟨c, hc, ht, rfl⟩
  · rintro ⟨c, hc, ht, rfl⟩
    exact ⟨c, hc, by simp [ht]⟩

/-! ## Decoder -/

/-- A row of the decoder answers next exactly where DEC_BYTE selects it, with what the class does. -/
theorem runRxRow_eq_next {c : RxClass} {x : Byte} {s t : State} :
    runRxRow c x s = .next t ↔ rxClassOf x s = c ∧ rxAct c x s = .next t := by
  unfold runRxRow
  split <;> simp_all

/-- A stored byte goes to RXBUF[RX_SIZE] and RX_SIZE goes up by one (spec/42 R150). -/
theorem rxStore_eq_next {b : Byte} {s t : State} :
    rxStore b s = .next t
      ↔ s.rxSize.toNat < s.build.bufCap
        ∧ t = { s with rxBuf := s.rxBuf.write s.rxSize.toNat b, rxSize := s.rxSize + 1 } := by
  unfold rxStore
  rw [andThen_eq_next]
  constructor
  · rintro ⟨s', hs, ht⟩
    obtain ⟨hlt, rfl⟩ := writeByte_eq_next.1 hs
    cases ht
    exact ⟨hlt, rfl⟩
  · rintro ⟨hlt, rfl⟩
    exact ⟨_, writeByte_eq_next.2 ⟨hlt, rfl⟩, rfl⟩

/-- FINALIZE, when it answers, leaves the state as it was, or counts and delivers one payload of
at least one byte, two shorter than RX_SIZE (spec/42 R151). -/
theorem finalize_eq_next {s t : State} (h : finalize s = .next t) :
    t = s
      ∨ ∃ p, 3 ≤ s.rxSize.toNat ∧ p.length = s.rxSize.toNat - 2
          ∧ t = { s with
              statRxFrames := countUp s.statRxFrames
              events := s.events ++ [.deliver p] } := by
  unfold finalize at h
  split at h
  · cases h
    exact .inl rfl
  · rename_i hn
    unfold finalizeFrame at h
    obtain ⟨p, hp, h⟩ := andThen_eq_next.1 h
    obtain ⟨lo, -, h⟩ := andThen_eq_next.1 h
    obtain ⟨hi, -, h⟩ := andThen_eq_next.1 h
    split at h
    · cases h
      exact .inr ⟨p, by omega, (readBytes_eq_next.1 hp).1, rfl⟩
    · cases h
      exact .inl rfl

/-- What DEC_BYTE can change: the decoder's own registers and counters, RXBUF and the record of
deliveries; nothing of the encoder (spec/42 R162). -/
theorem rxAct_frame {c : RxClass} {x : Byte} {s t : State} (h : rxAct c x s = .next t) :
    t = { s with
      rxState := t.rxState
      rxSize := t.rxSize
      rxBuf := t.rxBuf
      statSof := t.statSof
      statRxFrames := t.statRxFrames
      events := t.events } := by
  have store : ∀ {b : Byte} {s' : State}, rxStore b s = .next s' →
      s' = { s with rxBuf := s.rxBuf.write s.rxSize.toNat b, rxSize := s.rxSize + 1 } :=
    fun hs => (rxStore_eq_next.1 hs).2
  cases c with
  | start => cases h; rfl
  | ignore => cases h; rfl
  | escape => cases h; rfl
  | frameEnd =>
    obtain ⟨s', hs, ht⟩ := andThen_eq_next.1 h
    rcases finalize_eq_next hs with rfl | ⟨p, -, -, rfl⟩ <;> cases ht <;> rfl
  | overflow => cases h; rfl
  | data => obtain rfl := store h; rfl
  | substDelim =>
    obtain ⟨s', hs, ht⟩ := andThen_eq_next.1 h
    obtain rfl := store hs
    cases ht
    rfl
  | substEsc =>
    obtain ⟨s', hs, ht⟩ := andThen_eq_next.1 h
    obtain rfl := store hs
    cases ht
    rfl
  | full => cases h; rfl
  | badEscape => cases h; rfl

@[simp] theorem decBytes_nil (s : State) : decBytes [] s = .next s := rfl

@[simp] theorem decBytes_cons (x : Byte) (rest : List Byte) (s : State) :
    decBytes (x :: rest) s = andThen (decByte x s) (decBytes rest) := rfl

/-- Decoding one run of bytes after another is decoding both in a row. -/
theorem decBytes_append (a b : List Byte) (s : State) :
    decBytes (a ++ b) s = andThen (decBytes a s) (decBytes b) := by
  induction a generalizing s with
  | nil => rfl
  | cons x rest ih =>
    simp only [List.cons_append, decBytes_cons, andThen_assoc]
    congr 1
    funext s'
    exact ih s'

/-- A run of DEC_BYTEs changes nothing of the encoder either. -/
theorem decBytes_frame {bs : List Byte} {s t : State} (h : decBytes bs s = .next t) :
    t = { s with
      rxState := t.rxState
      rxSize := t.rxSize
      rxBuf := t.rxBuf
      statSof := t.statSof
      statRxFrames := t.statRxFrames
      events := t.events } := by
  induction bs generalizing s with
  | nil => cases h; rfl
  | cons x rest ih =>
    obtain ⟨u, hu, ht⟩ := andThen_eq_next.1 h
    have h1 := rxAct_frame hu
    rw [ih ht]
    rw [h1]

end Sys2Proof.Machine
end

