-- ==== Sys2Proof/Laws/PerInstr.lean ====
section
/-! SUPPORT. One statement per instruction: the bytes it is encoded by fit the match and mask of its
row of spec/opcode_table.json. -/

namespace Sys2Proof.Laws

open Sys2Proof

/-- The mask of an instruction's row. The row ILLEGAL_CMD names one reserved opcode and "also every
op in 0x07..0xFF", so no mask fits it. -/
def rowMask : Instr → Byte
  | .init _ _ _ _ | .teardown | .send _ _ | .task | .crc16 _ | .readReg _ => 0xFF#8
  | .illegalCmd _ => 0x00#8
  | .rxStart | .rxEscape | .rxEnd | .rxSubDelim | .rxSubEsc => 0xFF#8
  | .rxIgnore _ | .rxOverflow _ | .rxData _ | .rxBadEscape _ => 0x00#8
  | .rxFull _ => 0xFC#8
  | .txClose | .txOpen | .txEscape => 0xFF#8
  | .txLiteral => 0x00#8
  | .txSubstitute => 0xFC#8

/-- The match of an instruction's row. -/
def rowMatch : Instr → Byte
  | .init _ _ _ _ => 0x01#8
  | .teardown => 0x02#8
  | .send _ _ => 0x03#8
  | .task => 0x04#8
  | .crc16 _ => 0x05#8
  | .readReg _ => 0x06#8
  | .illegalCmd _ => 0x00#8
  | .rxStart => 0x7E#8
  | .rxIgnore _ => 0x00#8
  | .rxEscape => 0x7D#8
  | .rxEnd => 0x7E#8
  | .rxOverflow _ => 0x00#8
  | .rxData _ => 0x00#8
  | .rxSubDelim => 0x5E#8
  | .rxSubEsc => 0x5D#8
  | .rxFull _ => 0x5C#8
  | .rxBadEscape _ => 0x00#8
  | .txClose => 0x7E#8
  | .txOpen => 0x7E#8
  | .txEscape => 0x7D#8
  | .txLiteral => 0x00#8
  | .txSubstitute => 0x5C#8

/-- The byte the table's match and mask are about: the opcode of a command, the received byte of a
decoder row, the output byte of an encoder row. -/
def rowByte : Encoding → Byte
  | .command c => c.op
  | .received _ _ x => x
  | .encStep st atEnd b => txOutput (txCaseOf st atEnd b) b

namespace TableRow

/-- A well-formed instruction's byte fits its row, and the opcode of ILLEGAL_CMD is none of the
assigned ones. -/
def Statement (i : Instr) : Prop :=
  ∀ w, i.wellFormed w = true →
    rowByte (encode i) &&& rowMask i = rowMatch i
      ∧ ∀ op, i = .illegalCmd op → assignedOpcode op = false

theorem init (n : Size) (kind : LinkKind) (chunk : Size) (rxLink : LinkId) :
    Statement (.init n kind chunk rxLink) := fun _ _ => ⟨by simp [rowByte, encode, rowMask, rowMatch], by simp⟩

theorem teardown : Statement .teardown := fun _ _ => ⟨by decide, by simp⟩

theorem send (linkId : LinkId) (payload : List Byte) : Statement (.send linkId payload) :=
  fun _ _ => ⟨by simp [rowByte, encode, rowMask, rowMatch], by simp⟩

theorem task : Statement .task := fun _ _ => ⟨by decide, by simp⟩

theorem crc16 (data : List Byte) : Statement (.crc16 data) := fun _ _ => ⟨by simp [rowByte, encode, rowMask, rowMatch], by simp⟩

theorem readReg (reg : Byte) : Statement (.readReg reg) := fun _ _ => ⟨by simp [rowByte, encode, rowMask, rowMatch], by simp⟩

theorem illegalCmd (op : Byte) : Statement (.illegalCmd op) := fun w h => by
  refine ⟨by simp [rowMask, rowMatch], fun op' e => ?_⟩
  cases e
  simpa [Instr.wellFormed, Instr.reject] using h

theorem rxStart : Statement .rxStart := fun _ _ => ⟨by decide, by simp⟩

theorem rxIgnore (x : Byte) : Statement (.rxIgnore x) := fun _ _ =>
  ⟨by simp [rowMask, rowMatch], by simp⟩

theorem rxEscape : Statement .rxEscape := fun _ _ => ⟨by decide, by simp⟩

theorem rxEnd : Statement .rxEnd := fun _ _ => ⟨by decide, by simp⟩

theorem rxOverflow (x : Byte) : Statement (.rxOverflow x) := fun _ _ =>
  ⟨by simp [rowMask, rowMatch], by simp⟩

theorem rxData (x : Byte) : Statement (.rxData x) := fun _ _ =>
  ⟨by simp [rowMask, rowMatch], by simp⟩

theorem rxSubDelim : Statement .rxSubDelim := fun _ _ => ⟨by decide, by simp⟩

theorem rxSubEsc : Statement .rxSubEsc := fun _ _ => ⟨by decide, by simp⟩

theorem rxFull (x : Byte) : Statement (.rxFull x) := fun w h => by
  have hx : x = subDelim ∨ x = subEsc := by
    simpa [Instr.wellFormed, Instr.reject, imp_iff_not_or] using h
  rcases hx with rfl | rfl <;> exact ⟨by decide, by simp⟩

theorem rxBadEscape (x : Byte) : Statement (.rxBadEscape x) := fun _ _ =>
  ⟨by simp [rowMask, rowMatch], by simp⟩

theorem txClose : Statement .txClose := fun _ _ => ⟨by decide, by simp⟩

theorem txOpen : Statement .txOpen := fun _ _ => ⟨by decide, by simp⟩

theorem txEscape : Statement .txEscape := fun _ _ => ⟨by decide, by simp⟩

theorem txLiteral : Statement .txLiteral := fun _ _ => ⟨by decide, by simp⟩

theorem txSubstitute : Statement .txSubstitute := fun _ _ => ⟨by decide, by simp⟩

end TableRow

end Sys2Proof.Laws
end

