-- ==== Sys2Proof/Laws/Task.lean ====
section
/-! SUPPORT. What the parts of TASK, SEND and the control commands can do, said once. -/

namespace Sys2Proof.Machine

open Sys2Proof

/-! ## TASK -/

/-- ENC_STEPs of one unit change the encoder's registers and its output alone. -/
theorem encSteps_frame {more : Nat} {s t : State} (h : encSteps more s = .next t) :
    ∃ us, us ≠ [] ∧ us.length ≤ more + 1
      ∧ t = { s with
          txState := t.txState
          txSize := t.txSize
          sentSize := t.sentSize
          statTxFrames := t.statTxFrames
          encOut := s.encOut ++ us } := by
  induction more generalizing s with
  | zero =>
    obtain ⟨⟨s', closed⟩, hs, ht⟩ := andThen_eq_next.1 h
    obtain ⟨c, -, ha, -⟩ := encStep_eq_next.1 hs
    obtain ⟨u, hu⟩ := txAct_frame ha
    obtain rfl : s' = t := by simpa using ht
    exact ⟨[u], by simp, by simp, hu⟩
  | succ k ih =>
    obtain ⟨⟨s', closed⟩, hs, ht⟩ := andThen_eq_next.1 h
    obtain ⟨c, -, ha, -⟩ := encStep_eq_next.1 hs
    obtain ⟨u, hu⟩ := txAct_frame ha
    cases closed with
    | true =>
      obtain rfl : s' = t := by simpa using ht
      exact ⟨[u], by simp, by simp, hu⟩
    | false =>
      obtain ⟨us, hne, hlen, he⟩ := ih (s := s') (by simpa using ht)
      refine ⟨u :: us, by simp, by simp; omega, ?_⟩
      rw [he, hu]
      simp

/-- The transmit sub-step changes the encoder's registers, the record of the port and the
collaborator's list of answers, and leaves no output behind where it found none. -/
theorem txSubStep_frame {s t : State} (h : txSubStep s = .next t) :
    t = { s with
      txState := t.txState
      txSize := t.txSize
      sentSize := t.sentSize
      statTxFrames := t.statTxFrames
      encOut := t.encOut
      txReadyIn := t.txReadyIn
      draws := t.draws
      events := t.events }
    ∧ (s.encOut = [] → t.encOut = []) := by
  have hq : (txReady s).2 = { s with
      txReadyIn := (txReady s).2.txReadyIn
      draws := (txReady s).2.draws
      events := (txReady s).2.events } := by
    unfold txReady
    split <;> rfl
  unfold txSubStep at h
  simp only at h
  split at h
  · unfold transmit at h
    obtain ⟨u, hu, ht⟩ := andThen_eq_next.1 h
    obtain ⟨us, -, -, he⟩ := encSteps_frame hu
    cases ht
    refine ⟨?_, fun _ => rfl⟩
    rw [he, hq]
    rfl
  · cases h
    refine ⟨?_, fun h0 => by simp [h0]⟩
    rw [hq]

/-- The receive sub-step changes the decoder's registers and counters, RXBUF, the record of the
ports and the collaborator's lists of answers. -/
theorem rxSubStep_frame {s t : State} (h : rxSubStep s = .next t) :
    t = { s with
      rxState := t.rxState
      rxSize := t.rxSize
      rxBuf := t.rxBuf
      statSof := t.statSof
      statRxFrames := t.statRxFrames
      rxReadyIn := t.rxReadyIn
      rxIn := t.rxIn
      draws := t.draws
      events := t.events } := by
  have hq : (rxReady s).2 = { s with
      rxReadyIn := (rxReady s).2.rxReadyIn
      draws := (rxReady s).2.draws
      events := (rxReady s).2.events } := by
    unfold rxReady
    split <;> rfl
  unfold rxSubStep at h
  simp only at h
  split at h
  · unfold receive at h
    obtain ⟨⟨u, s1⟩, hr, ht⟩ := andThen_eq_next.1 h
    have h1 : s1 = { (rxReady s).2 with
        rxIn := s1.rxIn, draws := s1.draws, events := s1.events } := by
      have := (rxRecv_spec hr).2
      simp only at this
      rw [this]
    cases u with
    | byte x =>
      have h2 := rxAct_frame (c := rxClassOf x s1) (x := x) ht
      rw [h2, h1, hq]
    | message id bytes =>
      simp only [decodeUnit] at ht
      split at ht
      · have h2 := decBytes_frame ht
        rw [h2, h1, hq]
      · cases ht
        rw [h1, hq]
  · cases h
    rw [hq]

/-- A TASK that answers on a live instance is its two sub-steps and the answer OK (spec/44 R190). -/
theorem execTask_live {s t : State} (hl : s.live = true) :
    execTask s = .next t
      ↔ ∃ s1 s2, txSubStep s = .next s1 ∧ rxSubStep s1 = .next s2 ∧ t = s2.reply .ok 0 := by
  unfold execTask
  simp only [hl, Bool.true_eq_false, if_false, andThen_eq_next]
  constructor
  · rintro ⟨s1, h1, s2, h2, ht⟩
    cases ht
    exact ⟨s1, s2, h1, h2, rfl⟩
  · rintro ⟨s1, s2, h1, h2, rfl⟩
    exact ⟨s1, h1, s2, h2, rfl⟩

/-! ## SEND -/

/-- The status OK says what SEND requires (spec/43 R180). -/
theorem sendStatus_ok {s : State} {payload : List Byte} :
    sendStatus s payload = .ok
      ↔ s.live = true ∧ payload.length ≤ s.cfgN.toNat ∧ payload.length ≠ 0 ∧ s.txSize = 0 := by
  unfold sendStatus
  cases hl : s.live
  · simp
  · by_cases h1 : s.cfgN.toNat < payload.length
    · simp [h1]
    · by_cases h2 : payload.length = 0
      · simp [h2]
      · by_cases h3 : s.txSize = 0
        · simp [h1, h2, h3]
          omega
        · have : s.txSize ≠ 0#16 := h3
          simp [h1, h2, this]

/-- SEND answers a status other than OK, and nothing else, or loads the payload and answers OK. -/
theorem execSend_cases (linkId : LinkId) (payload : List Byte) (s : State) :
    (sendStatus s payload = .ok
        ∧ execSend linkId payload s
            = andThen (loadPayload linkId payload s) fun s' => .next (s'.reply .ok 0))
      ∨ (sendStatus s payload ≠ .ok
        ∧ execSend linkId payload s = .next (s.reply (sendStatus s payload) 0)) := by
  unfold execSend
  cases h : sendStatus s payload <;> simp

end Sys2Proof.Machine
end

