-- ==== Sys2Proof/Laws/Safety.lean ====
section
/-! SUPPORT. Checks that decide the predicates of Safety on a concrete memory, and the laws of the
records of the ports. -/

namespace Sys2Proof.Machine

open Sys2Proof

/-- What a memory holds can be checked index by index. -/
theorem holds_of_all {m : Memory} {bs : List Byte}
    (h : ((List.range bs.length).all fun i => m.read i == bs[i]?) = true) : Holds m bs := by
  intro i hi
  have := List.all_eq_true.1 h i (List.mem_range.2 hi)
  simpa using this

/-- Every listed index below the capacity means nothing is written at or above it. -/
theorem inside_of_all {m : Memory} {cap : Nat}
    (h : (m.all fun cell => decide (cell.1 < cap)) = true) : Inside m cap := by
  induction m with
  | nil => intro i _; rfl
  | cons cell rest ih =>
    obtain ⟨k, v⟩ := cell
    simp only [List.all_cons, Bool.and_eq_true, decide_eq_true_eq] at h
    intro i hi
    simp only [Memory.read]
    rw [if_neg (by omega)]
    exact ih h.2 i hi

/-- A write inside the capacity keeps everything inside. -/
theorem inside_write {m : Memory} {cap i : Nat} (b : Byte) (hi : i < cap) (h : Inside m cap) :
    Inside (m.write i b) cap := by
  intro j hj
  rw [Memory.read_write_other m b (by omega)]
  exact h j hj

@[simp] theorem deliveries_append (a b : List Event) :
    deliveries (a ++ b) = deliveries a ++ deliveries b := by
  induction a with
  | nil => rfl
  | cons e rest ih => cases e <;> simp [deliveries, ih]

@[simp] theorem sentUnits_append (a b : List Event) :
    sentUnits (a ++ b) = sentUnits a ++ sentUnits b := by
  induction a with
  | nil => rfl
  | cons e rest ih => cases e <;> simp [sentUnits, ih]

/-- One ENC_STEP more at the end of a run. -/
theorem encRun_succ (n : Nat) (s : State) :
    encRun (n + 1) s = andThen (encStep s) fun r => encRun n r.1 := rfl

/-- A run of ENC_STEPs in two parts. -/
theorem encRun_add (m n : Nat) (s : State) :
    encRun (m + n) s = andThen (encRun m s) (encRun n) := by
  induction m generalizing s with
  | zero => simp [encRun]
  | succ m ih =>
    rw [Nat.succ_add, encRun_succ, encRun_succ, andThen_assoc]
    congr 1
    funext r
    exact ih r.1

/-- A run of TASKs in two parts. -/
theorem taskRun_add (m n : Nat) (s : State) :
    taskRun (m + n) s = andThen (taskRun m s) (taskRun n) := by
  induction m generalizing s with
  | zero => simp [taskRun]
  | succ m ih =>
    rw [Nat.succ_add]
    simp only [taskRun, andThen_assoc]
    congr 1
    funext t
    exact ih t

end Sys2Proof.Machine
end

