-- ==== Sys2Proof/Tests/Slice0.lean ====
section
/-! SUPPORT. Tests of the model against the worked examples of spec/95_test_vectors.md and the
encoding tables, and one witness for the hypotheses of each statement. -/

namespace Sys2Proof.Tests

open Sys2Proof Sys2Proof.Machine

/-! ## Small states -/

/-- Power-on with BUF_CAP = 6 and LINKID_W = 11. -/
def base : State := { State.reset with build := { bufCap := 6, linkIdW := 11 } }

/-- After `INIT n=4, kind=STREAM` (vector C1). -/
def idle : State := { base with live := true, cfgN := 4 }

/-- After `INIT n=4, kind=MESSAGE, chunk=4, rx_link=0x12` (program P3). -/
def busIdle : State :=
  { base with live := true, cfgN := 4, cfgKind := .message, cfgChunk := 4, rxLinkId := 0x12 }

/-- TXBUF of payload `00` (vector E1). -/
def buf00 : Memory := [(0, 0x00#8), (1, 0x78#8), (2, 0xF0#8)]

/-- TXBUF of payload `7D` (vector K5). -/
def buf7D : Memory := [(0, 0x7D#8), (1, 0x1A#8), (2, 0x58#8)]

/-- `s` with the frame of payload `00` pending (vector S5). -/
def load00 (s : State) : State := { s with txBuf := buf00, txSize := 3 }

/-- `idle` with the frame of payload `7D` pending, in encoder state `st`. -/
def at7D (st : Framing) : State := { idle with txBuf := buf7D, txSize := 3, txState := st }

/-- `s` in decoder state `st` with `00 78 F0` stored (vector D1). -/
def stored00 (st : Framing) (s : State) : State :=
  { s with rxState := st, rxBuf := buf00, rxSize := 3 }

/-- `s` in decoder state `st` with RX_SIZE = N + 2 = 6 (vector D7). -/
def fullRx (st : Framing) : State :=
  { idle with
    rxState := st
    rxSize := 6
    rxBuf := [(0, 1#8), (1, 2#8), (2, 3#8), (3, 4#8), (4, 0x91#8), (5, 0x39#8)] }

/-- `s` with one answer to each query, and the units to come. -/
def asked (tx rx : Bool) (units : List LinkUnit) (s : State) : State :=
  { s with txReadyIn := [tx], rxReadyIn := [rx], rxIn := units }

/-- The result is a next state with a property. -/
def gives (r : Result) (f : State → Bool) : Bool :=
  match r with
  | .next t => f t
  | .fault _ | .refused _ => false

/-! ## Decoding: one word written out per row of the table -/

theorem test_decode_init :
    decode 11 { op := 0x01#8, n := 4, kind := 1#1, chunk := 4, rxLink := 0x12 }
      = .ok (.init 4 .message 4 0x12) := by decide

theorem test_decode_teardown : decode 11 { op := 0x02#8 } = .ok .teardown := by decide

theorem test_decode_send :
    decode 11 { op := 0x03#8, linkId := 0x12, payload := [0x01#8, 0x7D#8] }
      = .ok (.send 0x12 [0x01#8, 0x7D#8]) := by decide

theorem test_decode_task : decode 11 { op := 0x04#8 } = .ok .task := by decide

theorem test_decode_crc16 :
    decode 11 { op := 0x05#8, data := [0x31#8] } = .ok (.crc16 [0x31#8]) := by decide

theorem test_decode_read_reg :
    decode 11 { op := 0x06#8, reg := 0x0A#8 } = .ok (.readReg 0x0A#8) := by decide

theorem test_decode_illegal : decode 11 { op := 0x07#8 } = .ok (.illegalCmd 0x07#8) := by decide

theorem test_decode_rx_awaiting :
    (Encoding.received .awaitingDelimiter false 0x7E#8).decode 11 = .ok .rxStart
      ∧ (Encoding.received .awaitingDelimiter true 0x7D#8).decode 11 = .ok (.rxIgnore 0x7D#8) := by
  decide

theorem test_decode_rx_in_frame :
    (Encoding.received .inFrame true 0x7D#8).decode 11 = .ok .rxEscape
      ∧ (Encoding.received .inFrame true 0x7E#8).decode 11 = .ok .rxEnd
      ∧ (Encoding.received .inFrame true 0x5E#8).decode 11 = .ok (.rxOverflow 0x5E#8)
      ∧ (Encoding.received .inFrame false 0x5D#8).decode 11 = .ok (.rxData 0x5D#8) := by decide

theorem test_decode_rx_in_escape :
    (Encoding.received .inEscape false 0x5E#8).decode 11 = .ok .rxSubDelim
      ∧ (Encoding.received .inEscape false 0x5D#8).decode 11 = .ok .rxSubEsc
      ∧ (Encoding.received .inEscape true 0x5E#8).decode 11 = .ok (.rxFull 0x5E#8)
      ∧ (Encoding.received .inEscape true 0x7E#8).decode 11 = .ok (.rxBadEscape 0x7E#8) := by decide

theorem test_decode_tx :
    (Encoding.encStep .inEscape true 0x00#8).decode 11 = .ok .txClose
      ∧ (Encoding.encStep .awaitingDelimiter false 0x7E#8).decode 11 = .ok .txOpen
      ∧ (Encoding.encStep .inFrame false 0x7D#8).decode 11 = .ok .txEscape
      ∧ (Encoding.encStep .inFrame false 0x5E#8).decode 11 = .ok .txLiteral
      ∧ (Encoding.encStep .inEscape false 0x7E#8).decode 11 = .ok .txSubstitute := by decide

/-! ## Well-formedness: an ill-formed term for each check, which the check refuses -/

theorem test_wellFormed_accepts :
    (Instr.init 4 .message 4 0x7FF).wellFormed 11 = true
      ∧ (Instr.send 0x7FF [0x00#8]).wellFormed 11 = true
      ∧ (Instr.rxFull 0x5D#8).wellFormed 11 = true := by decide

theorem test_rejects_wide_rx_link :
    (Instr.init 4 .message 4 0x800).reject 11 = some .rxLinkTooWide := by decide

theorem test_rejects_wide_link_id : (Instr.send 0x800 []).reject 11 = some .linkIdTooWide := by
  decide

theorem test_rejects_long_payload (p : List Byte) (h : p.length = 2 ^ 16) :
    (Instr.send 0 p).reject 11 = some .payloadTooLong := by
  simp [Instr.reject, fitsWidth, h]

theorem test_rejects_assigned_opcode :
    (Instr.illegalCmd 0x06#8).reject 11 = some .opcodeAssigned := by decide

theorem test_rejects_byte_outside_class :
    (Instr.rxIgnore 0x7E#8).reject 11 = some .byteOutsideClass
      ∧ (Instr.rxOverflow 0x7E#8).reject 11 = some .byteOutsideClass
      ∧ (Instr.rxData 0x7D#8).reject 11 = some .byteOutsideClass
      ∧ (Instr.rxFull 0x7E#8).reject 11 = some .byteOutsideClass
      ∧ (Instr.rxBadEscape 0x5E#8).reject 11 = some .byteOutsideClass := by decide

/-! ## Commands -/

/-- Vector C1. -/
theorem test_init :
    gives (exec (.init 4 .stream 9 9) base) (fun t => t == idle.reply .ok 0) = true := by decide

/-- Vectors C2, C3 and C3b. -/
theorem test_init_bad_config :
    gives (exec (.init 5 .stream 0 0) base) (fun t => t == base.reply .badConfig 0) = true
      ∧ gives (exec (.init 0 .stream 0 0) base) (fun t => t == base.reply .badConfig 0) = true
      ∧ gives (exec (.init 4 .message 0 1) base) (fun t => t == base.reply .badConfig 0) = true := by
  decide

/-- Vector C4. -/
theorem test_teardown :
    gives (exec .teardown (stored00 .inFrame (load00 idle))) (fun t => t == base.reply .ok 0)
      = true := by decide

/-- Vector S5, and S8: the identifier is ignored on a STREAM link. -/
theorem test_send :
    gives (exec (.send 0x12 [0x00#8]) idle) (fun t => t == (load00 idle).reply .ok 0) = true := by
  decide

/-- Vectors S2, S3, S4 and S6. -/
theorem test_send_rejected :
    gives (exec (.send 0 [1#8, 2#8, 3#8, 4#8, 5#8]) idle)
        (fun t => t == idle.reply .txOverflow 0) = true
      ∧ gives (exec (.send 0 [0#8]) (load00 idle))
        (fun t => t == (load00 idle).reply .txOverflow 0) = true
      ∧ gives (exec (.send 0 []) idle) (fun t => t == idle.reply .txOverflow 0) = true
      ∧ gives (exec (.send 0 [0#8]) base) (fun t => t == base.reply .notLive 0) = true := by
  decide

/-- Vector K2 (C11), and K1. -/
theorem test_crc16 :
    gives (exec (.crc16 [0x00#8]) base) (fun t => t == base.reply .ok 0xF078) = true
      ∧ gives (exec (.crc16 []) base) (fun t => t == base.reply .ok 0) = true := by decide

/-- Vectors C7 and C9. -/
theorem test_read_reg :
    gives (exec (.readReg 0x04#8) (at7D .inEscape))
        (fun t => t == (at7D .inEscape).reply .ok 2) = true
      ∧ gives (exec (.readReg 0x0E#8) idle) (fun t => t == idle.reply .badReg 0) = true := by
  decide

/-- Vector C10. -/
theorem test_illegal_cmd :
    gives (step (idle.withFetchWord 8 0xFF)) (fun t => t == idle.reply .illegalCmd 0) = true := by
  decide

/-- Vector T3: both directions in one TASK, transmit first. -/
theorem test_task_stream :
    gives (exec .task (asked true true [.byte 0x7E#8] { load00 idle with txState := .inFrame }))
      (fun t => t.sentSize == 1 && t.rxState == .inFrame && t.statSof == 1
        && t.events == [.txReady true, .txSend (.byte 0x00#8), .rxReady true,
            .rxRecv (.byte 0x7E#8)]) = true := by decide

/-- Vector M1 with CHUNK = 4 on the frame of W2, and M2's filtered unit. -/
theorem test_task_message :
    gives (exec .task (asked true true [.message 0x13 [0x7E#8]] (load00 busIdle)))
      (fun t => t.sentSize == 3 && t.rxState == .awaitingDelimiter
        && t.events == [.txReady true,
            .txSend (.message 0 [0x7E#8, 0x00#8, 0x78#8, 0xF0#8]), .rxReady true,
            .rxRecv (.message 0x13 [0x7E#8])]) = true := by decide

/-! ## Codec rows -/

/-- Vectors E1 and E2: the opening and the closing delimiter. -/
theorem test_tx_delimiters :
    gives (exec .txOpen (load00 idle)) (fun t => t.txState == .inFrame && t.encOut == [0x7E#8])
        = true
      ∧ gives (exec .txClose { load00 idle with txState := .inFrame, sentSize := 3 })
        (fun t => t.txSize == 0 && t.sentSize == 0 && t.txState == .awaitingDelimiter
          && t.statTxFrames == 1 && t.encOut == [0x7E#8]) = true := by decide

/-- Vector E4b: payload `7D` is sent as `7D 5D`, then its CRC `1A`. -/
theorem test_tx_bytes :
    gives (exec .txEscape (at7D .inFrame))
        (fun t => t.txState == .inEscape && t.sentSize == 0 && t.encOut == [0x7D#8]) = true
      ∧ gives (exec .txSubstitute (at7D .inEscape))
        (fun t => t.txState == .inFrame && t.sentSize == 1 && t.encOut == [0x5D#8]) = true
      ∧ gives (exec .txLiteral { at7D .inFrame with sentSize := 1 })
        (fun t => t.sentSize == 2 && t.encOut == [0x1A#8]) = true := by decide

/-- Vectors D1 and D10: the start of a frame, and junk before it. -/
theorem test_rx_awaiting :
    gives (exec .rxStart idle)
        (fun t => t.rxState == .inFrame && t.rxSize == 0 && t.statSof == 1) = true
      ∧ gives (exec (.rxIgnore 0x5E#8) idle) (fun t => t == idle) = true := by decide

/-- Vectors D14 and D7: an escape, data, and data with the buffer full (D8). -/
theorem test_rx_in_frame :
    gives (exec .rxEscape (fullRx .inFrame)) (fun t => t == fullRx .inEscape) = true
      ∧ gives (exec (.rxData 0x5E#8) { idle with rxState := .inFrame })
        (fun t => t.rxSize == 1 && t.rxBuf == [(0, 0x5E#8)]) = true
      ∧ gives (exec (.rxOverflow 0x22#8) (fullRx .inFrame))
        (fun t => t.rxSize == 0 && t.rxState == .awaitingDelimiter && t.statSof == 0) = true := by
  decide

/-- Vectors D1 and D4: the closing delimiter with a CRC that matches, and one that does not. -/
theorem test_rx_end :
    gives (exec .rxEnd (stored00 .inFrame idle))
        (fun t => t.statRxFrames == 1 && t.events == [.deliver [0x00#8]] && t.rxSize == 0) = true
      ∧ gives (exec .rxEnd { stored00 .inFrame idle with
            rxBuf := [(0, 0x00#8), (1, 0x78#8), (2, 0xF1#8)] })
        (fun t => t.statRxFrames == 0 && t.events == [] && t.rxState == .awaitingDelimiter)
        = true := by decide

/-- Vectors D14, D9 and D6. -/
theorem test_rx_in_escape :
    gives (exec .rxSubDelim { idle with rxState := .inEscape })
        (fun t => t.rxBuf == [(0, 0x7E#8)] && t.rxState == .inFrame) = true
      ∧ gives (exec .rxSubEsc { idle with rxState := .inEscape })
        (fun t => t.rxBuf == [(0, 0x7D#8)] && t.rxState == .inFrame) = true
      ∧ gives (exec (.rxFull 0x5E#8) (fullRx .inEscape))
        (fun t => t.rxSize == 0 && t.rxState == .awaitingDelimiter) = true
      ∧ gives (exec (.rxBadEscape 0x7E#8) { idle with rxState := .inEscape })
        (fun t => t.rxState == .awaitingDelimiter && t.statSof == 0) = true := by decide

/-- Vectors K9 and E3a: the wire form of a frame whose CRC holds a delimiter. -/
theorem test_frame : frame [0x2A#8] = [0x7E#8, 0x2A#8, 0x20#8, 0x7D#8, 0x5E#8, 0x7E#8] := by
  decide


/-! ## Good states -/

/-- The invariant of Safety as a check; `p` is the payload pending, if any. -/
def good (p : List Byte) (s : State) : Bool :=
  decide (3 ≤ s.build.bufCap ∧ s.build.bufCap < 2 ^ 16 ∧ 1 ≤ s.build.linkIdW)
    && (s.txBuf.wf && s.rxBuf.wf)
    && ((s.txBuf.all fun cell => decide (cell.1 < s.build.bufCap))
      && (s.rxBuf.all fun cell => decide (cell.1 < s.build.bufCap)))
    && decide (s.live = true)
    && decide (1 ≤ s.cfgN.toNat ∧ s.cfgN.toNat + 2 ≤ s.build.bufCap)
    && decide (s.cfgKind = .message → 1 ≤ s.cfgChunk.toNat)
    && decide (s.cfgKind = .stream → s.cfgChunk = 0 ∧ s.rxLinkId = 0 ∧ s.txLinkId = 0)
    && decide (s.rxLinkId < 2 ^ s.build.linkIdW ∧ s.txLinkId < 2 ^ s.build.linkIdW)
    && decide (s.sentSize.toNat ≤ s.txSize.toNat ∧ s.txSize.toNat ≤ s.cfgN.toNat + 2)
    && decide (s.txSize = 0 ∨ 3 ≤ s.txSize.toNat)
    && decide (s.txSize = 0 → s.txState = .awaitingDelimiter ∧ s.sentSize = 0)
    && decide (s.txState = .awaitingDelimiter → s.sentSize = 0)
    && decide (s.txState = .inEscape → s.sentSize.toNat < s.txSize.toNat ∧
        (s.txBuf.read s.sentSize.toNat = some delim ∨ s.txBuf.read s.sentSize.toNat = some esc))
    && (decide (s.txSize = 0) || (decide (s.txSize.toNat = p.length + 2)
      && ((List.range (withCrc p).length).all fun i => s.txBuf.read i == (withCrc p)[i]?)))
    && decide (s.rxSize.toNat ≤ s.cfgN.toNat + 2)
    && decide (s.rxState = .awaitingDelimiter → s.rxSize = 0)
    && ((List.range s.rxSize.toNat).all fun i => (s.rxBuf.read i).isSome)
    && decide (s.encOut = [])

/-- The check is right. -/
theorem inv_of_good {s : State} (p : List Byte) (h : good p s = true) : Inv s := by
  simp only [good, Bool.and_eq_true, Bool.or_eq_true, decide_eq_true_eq] at h
  obtain ⟨⟨⟨⟨⟨⟨⟨⟨⟨⟨⟨⟨⟨⟨⟨⟨⟨h1, h2⟩, h3⟩, h4⟩, h5⟩, h6⟩, h7⟩, h8⟩, h9⟩, h10⟩, h11⟩, h12⟩, h13⟩, h14⟩,
    h15⟩, h16⟩, h17⟩, h18⟩ := h
  exact {
    build := h1
    txWf := h2.1
    rxWf := h2.2
    txInside := inside_of_all h3.1
    rxInside := inside_of_all h3.2
    config := fun _ => h5
    chunk := fun _ => h6
    streamZero := h7
    linkIds := h8
    sizes := h9
    txSizeLegal := h10
    txIdle := h11
    txAwaiting := h12
    txEscaped := h13
    pending := fun hne => ⟨p, (h14.resolve_left hne).1, holds_of_all (h14.resolve_left hne).2⟩
    rxSizeLe := h15
    rxAwaiting := h16
    rxWritten := fun i hi => List.all_eq_true.1 h17 i (List.mem_range.2 hi)
    notLive := fun hl => absurd (h4.symm.trans hl) (by decide)
    noOutput := h18 }

theorem inv_idle : Inv idle := inv_of_good [] (by decide)

theorem inv_busIdle : Inv busIdle := inv_of_good [] (by decide)

theorem inv_load00 : Inv (load00 idle) := inv_of_good [0x00#8] (by decide)

theorem inv_busLoad00 : Inv (load00 busIdle) := inv_of_good [0x00#8] (by decide)

theorem loaded00 (s : State) (hb : s.build.bufCap = 6) (hs : s.txState = .awaitingDelimiter)
    (h0 : s.sentSize = 0) : Loaded [0x00#8] (load00 s) where
  state := hs
  nothingSent := h0
  size := rfl
  stored := holds_of_all (m := buf00) (by decide)
  inside := by simp [load00, hb]

/-! ## Witnesses: states and operands that meet the hypotheses of each statement -/

/-- A result that is a next state, as an existence. -/
theorem exists_of_gives {r : Result} (h : gives r (fun _ => true) = true) : ∃ t, r = .next t := by
  cases r with
  | next t => exact ⟨t, rfl⟩
  | fault _ => cases h
  | refused _ => cases h

theorem witness_EncodedInstructionDecodes :
    (Instr.send 0x7FF [0x7E#8]).wellFormed 11 = true ∧ Instr.rxStart.wellFormed 11 = true
      ∧ Instr.txSubstitute.wellFormed 11 = true := by decide

theorem witness_DecodedCommandEncodesToItsFields :
    decode 11 { op := 0x01#8, n := 4, reg := 9 } = .ok (.init 4 .stream 0 0) := by decide

/-- Each clause: a command that decodes, an empty port, and an operand too wide. -/
theorem witness_StepRunsDecodedCommand :
    (∃ s : State, s.hostPort = [{ op := 0x04#8 }]
        ∧ decode s.build.linkIdW { op := 0x04#8 } = .ok .task)
      ∧ base.hostPort = []
      ∧ ∃ s : State, s.hostPort = [{ op := 0x03#8, linkId := 0x800 }]
        ∧ decode s.build.linkIdW { op := 0x03#8, linkId := 0x800 } = .error .linkIdTooWide :=
  ⟨⟨{ base with hostPort := [{ op := 0x04#8 }] }, by decide⟩, rfl,
    ⟨{ base with hostPort := [{ op := 0x03#8, linkId := 0x800 }] }, by decide⟩⟩

theorem witness_PowerOnState :
    Instr.task.isCommand = true ∧ (∀ n kind chunk rxLink, Instr.task ≠ .init n kind chunk rxLink)
      ∧ ∃ t, exec .task State.reset = .next t :=
  ⟨rfl, fun _ _ _ _ h => (by cases h), ⟨_, rfl⟩⟩

/-- Each clause, with the first and the last index of a buffer, and INIT at n + 2 = BUF_CAP. -/
theorem witness_UnspecifiedBuffersAreUnwritten :
    0 < State.reset.build.bufCap
      ∧ (5 < idle.build.bufCap ∧ ∃ t, exec .teardown idle = .next t)
      ∧ ((4 : Size).toNat + 2 = base.build.bufCap ∧ ∃ t, exec (.init 4 .message 1 0) base = .next t)
      ∧ ∃ t, exec (.init 1 .stream 0 0) base = .next t :=
  ⟨Nat.succ_pos _, ⟨by decide, exists_of_gives (by decide)⟩,
    ⟨by decide, exists_of_gives (by decide)⟩, exists_of_gives (by decide)⟩

/-- A good state whose next step is the opening delimiter's TASK. -/
def tasking : State :=
  { asked true false [] (load00 idle) with hostPort := [{ op := 0x04#8 }] }

theorem inv_tasking : Inv tasking := inv_of_good [0x00#8] (by decide)

theorem witness_StepKeepsInvariant : Inv tasking ∧ ∃ t, step tasking = .next t :=
  ⟨inv_tasking, exists_of_gives (by decide)⟩

theorem witness_StepNeverFaults : Inv tasking := inv_tasking

theorem witness_StepCompletes :
    Inv tasking ∧ NextCommandFits tasking ∧ NextUnitInContract tasking :=
  ⟨inv_tasking, by intro c hc; cases hc; decide, by intro u hu; cases hu⟩

theorem witness_EveryCommandAnswersOnce :
    (Instr.isCommand (.readReg 0x0D) = true ∧ ∃ t, exec (.readReg 0x0D) idle = .next t)
      ∧ Instr.isCommand (.crc16 []) = true ∧ (∃ t, exec (.crc16 []) idle = .next t)
      ∧ Instr.isCommand .teardown = true ∧ ∃ t, exec .teardown idle = .next t :=
  ⟨⟨rfl, ⟨_, rfl⟩⟩, rfl, ⟨_, rfl⟩, rfl, ⟨_, rfl⟩⟩

theorem witness_Crc16Answers :
    ∃ s : State, s.hostPort = [{ op := 0x05#8, data := [0x31#8] }] :=
  ⟨{ base with hostPort := [{ op := 0x05#8, data := [0x31#8] }] }, rfl⟩

theorem witness_CrcDetectsOneChangedByte : (0x00#8 : Byte) ≠ 0x01#8 := by decide

/-- Not live; too long by one, empty, and pending; the shortest and the longest payload. -/
theorem witness_SendFollowsPseudocode :
    base.live = false
      ∧ (idle.live = true ∧ idle.cfgN.toNat < [1#8, 2#8, 3#8, 4#8, 5#8].length)
      ∧ (idle.live = true ∧ ([] : List Byte).length = 0)
      ∧ ((load00 idle).live = true ∧ (load00 idle).txSize ≠ 0)
      ∧ ((3 ≤ idle.build.bufCap ∧ idle.build.bufCap < 2 ^ 16 ∧ 1 ≤ idle.build.linkIdW)
        ∧ idle.cfgN.toNat + 2 ≤ idle.build.bufCap ∧ 1 ≤ [1#8].length
        ∧ [1#8, 2#8, 3#8, 4#8].length ≤ idle.cfgN.toNat ∧ idle.txSize = 0) := by decide

theorem witness_FailedSendMutatesNothing :
    exec (.send 0 []) idle = .next (idle.reply .txOverflow 0)
      ∧ (idle.reply .txOverflow 0).replies
        ≠ idle.replies ++ [{ status := .ok, value := 0 }] := ⟨rfl, by decide⟩

/-- A valid configuration at both ends of `n`, and one of each kind that is not. -/
theorem witness_InitFollowsPseudocode :
    (1 ≤ (1 : Size).toNat ∧ (1 : Size).toNat + 2 ≤ base.build.bufCap)
      ∧ (4 : Size).toNat + 2 = base.build.bufCap ∧ 1 ≤ (1 : Size).toNat
      ∧ (0 : Size).toNat < 1 ∧ base.build.bufCap < (5 : Size).toNat + 2
      ∧ (LinkKind.message = .message ∧ (0 : Size).toNat < 1) := by decide

theorem witness_ReadRegAnswersRegister :
    0x0E ≤ (0x0E#8 : Byte).toNat ∧ 0x0E ≤ (0xFF#8 : Byte).toNat := by decide

/-- Opcodes 0x00, 0x07 and 0xFF on the port. -/
theorem witness_ReservedOpcodeAnswersIllegalCmd :
    (∃ s : State, s.hostPort = [{ op := 0x00#8 }])
      ∧ (∃ s : State, s.hostPort = [{ op := 0x07#8 }]) ∧ 0x07 ≤ (0x07#8 : Byte).toNat
      ∧ 0x07 ≤ (0xFF#8 : Byte).toNat :=
  ⟨⟨{ base with hostPort := [{ op := 0x00#8 }] }, rfl⟩,
    ⟨{ base with hostPort := [{ op := 0x07#8 }] }, rfl⟩, by decide, by decide⟩

/-- Idle; at the end; opening; and the byte at SENT_SIZE reserved, literal and substituted. -/
theorem witness_EncStepFollowsCases :
    idle.txSize = 0
      ∧ ((load00 idle).txSize ≠ 0 ∧ { load00 idle with sentSize := 3 }.sentSize = 3)
      ∧ ((load00 idle).sentSize ≠ (load00 idle).txSize
        ∧ (load00 idle).txState = .awaitingDelimiter)
      ∧ ((at7D .inFrame).sentSize.toNat < (at7D .inFrame).build.bufCap
        ∧ (at7D .inFrame).txBuf.read (at7D .inFrame).sentSize.toNat = some 0x7D#8
        ∧ (at7D .inFrame).txState = .inFrame)
      ∧ (buf00.read 2 = some 0xF0#8 ∧ (0xF0#8 : Byte) ≠ 0x7E#8 ∧ (0xF0#8 : Byte) ≠ 0x7D#8)
      ∧ (at7D .inEscape).txState = .inEscape := by decide

/-- An ENC_STEP that answers, from the fresh frame. -/
theorem encStep_load00 : ∃ t closed, encStep (load00 idle) = .next (t, closed) :=
  ⟨_, _, rfl⟩

theorem witness_OneByteEachEncStep : ∃ t closed, encStep (load00 idle) = .next (t, closed) :=
  encStep_load00

theorem witness_EncStepMakesProgress :
    ((load00 idle).sentSize.toNat ≤ (load00 idle).txSize.toNat
        ∧ ∃ t closed, encStep (load00 idle) = .next (t, closed))
      ∧ Inv (load00 idle) ∧ (load00 idle).txSize ≠ 0 :=
  ⟨⟨by decide, encStep_load00⟩, inv_load00, by decide⟩

theorem witness_EncoderEmitsFrame :
    Loaded [0x00#8] (load00 idle) ∧ 0 < (frame [0x00#8]).length :=
  ⟨loaded00 idle rfl rfl rfl, by decide⟩

theorem witness_FrameLength : 1 ≤ [0x7E#8].length ∧ [0x7E#8].length ≤ 1 := by decide

theorem witness_UnstuffInvertsStuff : (stuff [0x00#8, 0x7E#8])[1]? = some esc := by decide

/-- Each byte class: its state, its byte and RX_SIZE at a boundary (5 and 6 of N + 2 = 6). -/
theorem witness_DecByteFollowsTable :
    idle.rxState = .awaitingDelimiter
      ∧ (fullRx .inFrame).rxState = .inFrame ∧ (fullRx .inEscape).rxState = .inEscape
      ∧ (fullRx .inFrame).rxSize.toNat = (fullRx .inFrame).cfgN.toNat + 2
      ∧ { fullRx .inFrame with rxSize := 5 }.rxSize.toNat < (fullRx .inFrame).cfgN.toNat + 2
      ∧ (fullRx .inFrame).cfgN.toNat + 2 ≤ (fullRx .inFrame).build.bufCap
      ∧ (0x5E#8 : Byte) ≠ 0x7D#8 ∧ (0x5E#8 : Byte) ≠ 0x7E#8 ∧ (0x7E#8 : Byte) ≠ 0x5D#8 := by
  decide

theorem witness_DecByteFollowsTable_end : ∃ u, finalize (stored00 .inFrame idle) = .next u :=
  exists_of_gives (by decide)

/-- RX_SIZE = 2; a frame of three bytes with its CRC; and one whose CRC does not match. -/
theorem witness_FinalizeChecksAndDelivers :
    { idle with rxSize := 2 }.rxSize.toNat < 3
      ∧ ([0x00#8].length + 2 = (stored00 .inFrame idle).rxSize.toNat
        ∧ (stored00 .inFrame idle).rxSize.toNat ≤ (stored00 .inFrame idle).build.bufCap
        ∧ Holds (stored00 .inFrame idle).rxBuf ([0x00#8] ++ [0x78#8, 0xF0#8])
        ∧ crc16 [0x00#8] = fromLowHigh 0x78#8 0xF0#8)
      ∧ (Holds [(0, 0x00#8), (1, 0x78#8), (2, 0xF1#8)] ([0x00#8] ++ [0x78#8, 0xF1#8])
        ∧ crc16 [0x00#8] ≠ fromLowHigh 0x78#8 0xF1#8) :=
  ⟨by decide, ⟨by decide, by decide, holds_of_all (m := buf00) (by decide), by decide⟩,
    holds_of_all (by decide), by decide⟩

theorem witness_DelimiterInEscapeDropsFrame :
    (fullRx .inEscape).rxState = .inEscape ∧ delim ∉ [0x00#8, 0x7D#8] := by decide

theorem witness_EscapeWhenFullDropsFrame :
    (fullRx .inFrame).rxState = .inFrame
      ∧ (fullRx .inFrame).rxSize.toNat = (fullRx .inFrame).cfgN.toNat + 2 := by decide

/-- The shortest and the longest payload at N = 4. -/
theorem witness_DecoderDeliversFrame :
    idle.rxState = .awaitingDelimiter ∧ Receivable [0x7E#8] idle
      ∧ Receivable [0x7E#8, 0x7E#8, 0x7D#8, 0x00#8] idle :=
  ⟨rfl, ⟨by decide, by decide, by decide, by decide⟩, ⟨by decide, by decide, by decide, by decide⟩⟩

theorem witness_FramesOutOfPhaseAreLost :
    Inv (fullRx .inEscape) ∧ (fullRx .inEscape).rxState ≠ .awaitingDelimiter :=
  ⟨inv_of_good [] (by decide), by decide⟩

theorem witness_CodecStepsAreTableRows :
    Instr.txOpen.isCommand = false ∧ (∃ t, exec .txOpen (load00 idle) = .next t)
      ∧ Instr.rxStart.isCommand = false ∧ ∃ t, exec .rxStart idle = .next t :=
  ⟨rfl, exists_of_gives (by decide), rfl, exists_of_gives (by decide)⟩

/-! ### TASK -/

/-- A STREAM frame pending, ready to transmit, nothing to receive. -/
abbrev streamTx : State := asked true false [] (load00 idle)

/-- A MESSAGE frame pending, ready to transmit, nothing to receive. -/
abbrev messageTx : State := asked true false [] (load00 busIdle)

/-- A STREAM byte to receive, nothing to transmit. -/
abbrev streamRx : State := asked false true [.byte 0x7E#8] idle

/-- A MESSAGE unit of CHUNK bytes to receive, with the identifier `id`. -/
abbrev messageRx (id : LinkId) : State :=
  asked false true [.message id [0x7E#8, 0x00#8, 0x78#8, 0xF0#8]] busIdle

theorem inv_streamTx : Inv streamTx := inv_of_good [0x00#8] (by decide)

theorem inv_messageTx : Inv messageTx := inv_of_good [0x00#8] (by decide)

theorem inv_streamRx : Inv streamRx := inv_of_good [] (by decide)

theorem inv_messageRx (id : LinkId) : Inv (messageRx id) :=
  { inv_busIdle with notLive := fun h => by cases h }

theorem witness_TaskRefusedWhileNotLive : base.live = false := by decide

theorem witness_LiveTaskCompletes :
    Inv (messageRx 0x12) ∧ (messageRx 0x12).live = true ∧ NextUnitInContract (messageRx 0x12) :=
  ⟨inv_messageRx _, rfl, by intro u hu; cases hu; decide⟩

theorem witness_TaskRunsBothSubSteps :
    Inv (messageRx 0x7FF) ∧ (messageRx 0x7FF).live = true ∧ NextUnitInContract (messageRx 0x7FF) :=
  ⟨inv_messageRx _, rfl, by intro u hu; cases hu; decide⟩

theorem witness_TaskFrame : ∃ t, exec .task streamTx = .next t := exists_of_gives (by decide)

theorem witness_TaskStoresBelowCapacity :
    Inv { messageRx 0x12 with rxIn := [.message 0x12 [0x7E#8, 0x00#8]] }
      ∧ 0 ∈ taskStores { messageRx 0x12 with rxIn := [.message 0x12 [0x7E#8, 0x00#8]] } :=
  ⟨inv_of_good [] (by decide), by decide⟩

theorem witness_StreamTaskTransmitsOneByte :
    Inv streamTx ∧ streamTx.live = true ∧ streamTx.cfgKind = .stream ∧ streamTx.txSize ≠ 0
      ∧ streamTx.txReadyIn = [true] ∧ streamTx.rxReadyIn = [false] :=
  ⟨inv_streamTx, by decide⟩

theorem witness_MessageTaskTransmitsOneUnit :
    Inv messageTx ∧ messageTx.live = true ∧ messageTx.cfgKind = .message ∧ messageTx.txSize ≠ 0
      ∧ messageTx.txReadyIn = [true] ∧ messageTx.rxReadyIn = [false] :=
  ⟨inv_messageTx, by decide⟩

theorem witness_StreamTaskReceivesOneByte :
    Inv streamRx ∧ streamRx.live = true ∧ streamRx.cfgKind = .stream
      ∧ streamRx.txReadyIn = [false] ∧ streamRx.rxReadyIn = [true]
      ∧ streamRx.rxIn = [.byte 0x7E#8] :=
  ⟨inv_streamRx, by decide⟩

/-- A unit for this instance, and one for another, at LINKID_W's largest identifier. -/
theorem witness_MessageTaskFiltersUnits :
    (Inv (messageRx 0x12) ∧ (messageRx 0x12).live = true ∧ (messageRx 0x12).cfgKind = .message
        ∧ 0x12 < 2 ^ (messageRx 0x12).build.linkIdW
        ∧ [0x7E#8, 0x00#8, 0x78#8, 0xF0#8].length ≤ (messageRx 0x12).cfgChunk.toNat
        ∧ 0x12 = (messageRx 0x12).rxLinkId)
      ∧ (Inv (messageRx 0x7FF) ∧ 0x7FF < 2 ^ (messageRx 0x7FF).build.linkIdW
        ∧ 0x7FF ≠ (messageRx 0x7FF).rxLinkId) :=
  ⟨⟨inv_messageRx _, by decide⟩, inv_messageRx _, by decide⟩

/-- Vector T3's state: a frame in transmission, and a byte to receive. -/
abbrev streamBoth : State :=
  asked true true [.byte 0x7E#8] { load00 idle with txState := .inFrame }

theorem witness_StreamTaskTransmitsAndReceives :
    Inv streamBoth ∧ streamBoth.live = true ∧ streamBoth.cfgKind = .stream
      ∧ streamBoth.txSize ≠ 0 ∧ streamBoth.txReadyIn = [true] ∧ streamBoth.rxReadyIn = [true]
      ∧ streamBoth.rxIn = [.byte 0x7E#8] :=
  ⟨inv_of_good [0x00#8] (by decide), by decide⟩

/-- A frame pending, and a unit of CHUNK bytes with the identifier `id`. -/
abbrev messageBoth (id : LinkId) : State :=
  asked true true [.message id [0x7E#8, 0x00#8, 0x78#8, 0xF0#8]] (load00 busIdle)

/-- A unit for this instance, and one for another, at LINKID_W's largest identifier. -/
theorem witness_MessageTaskTransmitsAndReceives :
    (Inv (messageBoth 0x12) ∧ (messageBoth 0x12).live = true ∧ (messageBoth 0x12).cfgKind = .message
        ∧ (messageBoth 0x12).txSize ≠ 0 ∧ 0x12 < 2 ^ (messageBoth 0x12).build.linkIdW
        ∧ [0x7E#8, 0x00#8, 0x78#8, 0xF0#8].length ≤ (messageBoth 0x12).cfgChunk.toNat
        ∧ (messageBoth 0x12).txReadyIn = [true] ∧ (messageBoth 0x12).rxReadyIn = [true]
        ∧ 0x12 = (messageBoth 0x12).rxLinkId)
      ∧ Inv (messageBoth 0x7FF) ∧ 0x7FF < 2 ^ (messageBoth 0x7FF).build.linkIdW
      ∧ 0x7FF ≠ (messageBoth 0x7FF).rxLinkId :=
  ⟨⟨inv_of_good [0x00#8] (by decide), by decide⟩, inv_of_good [0x00#8] (by decide), by decide⟩

theorem witness_TaskWithoutWorkHoldsState :
    (asked false false [] (load00 idle)).live = true
      ∧ (asked false false [] (load00 idle)).txReadyIn = [false]
      ∧ (asked false false [] (load00 idle)).rxReadyIn = [false]
      ∧ (asked true false [] idle).txReadyIn = [true] ∧ (asked true false [] idle).txSize = 0 := by
  decide

/-- Both answers, with and without a frame pending. -/
theorem witness_TaskEventOrder :
    (streamTx.live = true ∧ ∃ t, exec .task streamTx = .next t)
      ∧ streamRx.live = true ∧ ∃ t, exec .task streamRx = .next t :=
  ⟨⟨rfl, exists_of_gives (by decide)⟩, rfl, exists_of_gives (by decide)⟩

/-- One byte too many, an identifier one too large, and a unit of the other variant each way. -/
theorem witness_UnitOutsideContractRefused :
    ((messageRx 0x12).live = true ∧ (messageRx 0x12).txReadyIn = [false]
        ∧ (messageRx 0x12).rxReadyIn = [true])
      ∧ (messageRx 0x12).cfgChunk.toNat < [1#8, 2#8, 3#8, 4#8, 5#8].length
      ∧ 2 ^ (messageRx 0x800).build.linkIdW ≤ 0x800
      ∧ streamRx.cfgKind = .stream ∧ (messageRx 0x12).cfgKind = .message := by decide

theorem witness_SendCommutesWithReceive :
    (∃ s1, exec (.send 0 [0x00#8]) streamRx = .next s1) ∧ ∃ s2, rxSubStep streamRx = .next s2 :=
  ⟨exists_of_gives (by decide), exists_of_gives (by decide)⟩

/-- A frame of 5 bytes pending, with an answer to each query of 5 TASKs. -/
theorem witness_StreamFrameTakesItsLengthInTasks :
    ∃ s : State, s.live = true ∧ s.cfgKind = .stream ∧ Loaded [0x00#8] s
      ∧ s.txReadyIn = List.replicate (frame [0x00#8]).length true ++ []
      ∧ s.rxReadyIn = List.replicate (frame [0x00#8]).length false ++ []
      ∧ 0 < (frame [0x00#8]).length :=
  ⟨load00 { idle with
      txReadyIn := [true, true, true, true, true]
      rxReadyIn := [false, false, false, false, false] },
    rfl, rfl, loaded00 _ rfl rfl rfl, by decide, by decide, by decide⟩

/-- A frame of 5 bytes in units of CHUNK = 4: two TASKs. -/
theorem witness_MessageFrameTakesItsChunksInTasks :
    ∃ s : State, s.live = true ∧ s.cfgKind = .message ∧ 1 ≤ s.cfgChunk.toNat ∧ Loaded [0x00#8] s
      ∧ 2 = ((frame [0x00#8]).length + s.cfgChunk.toNat - 1) / s.cfgChunk.toNat
      ∧ s.txReadyIn = List.replicate 2 true ++ [] ∧ s.rxReadyIn = List.replicate 2 false ++ [] :=
  ⟨load00 { busIdle with txReadyIn := [true, true], rxReadyIn := [false, false] },
    rfl, rfl, by decide, loaded00 _ rfl rfl rfl, by decide, by decide, by decide⟩

theorem witness_SentFramesCountedAtClose :
    streamTx.live = true ∧ ∃ t, exec .task streamTx = .next t :=
  ⟨rfl, exists_of_gives (by decide)⟩

/-! ### Whole-machine rules -/

/-- An instruction that is neither INIT nor TEARDOWN. -/
theorem task_keeps_configuration :
    (∀ n kind chunk rxLink, Instr.task ≠ .init n kind chunk rxLink)
      ∧ Instr.task ≠ .teardown :=
  ⟨fun _ _ _ _ h => (by cases h), fun h => (by cases h)⟩

theorem witness_ConfigurationFixedWhileLive :
    (∃ t, exec .task streamTx = .next t)
      ∧ (∀ n kind chunk rxLink, Instr.task ≠ .init n kind chunk rxLink) ∧ Instr.task ≠ .teardown :=
  ⟨exists_of_gives (by decide), task_keeps_configuration⟩

theorem witness_PendingFrameStaysInTxbuf :
    (∃ t, exec .task streamTx = .next t)
      ∧ (∀ n kind chunk rxLink, Instr.task ≠ .init n kind chunk rxLink) ∧ Instr.task ≠ .teardown
      ∧ streamTx.txSize ≠ 0 ∧ ∀ linkId p, Instr.task ≠ .send linkId p :=
  ⟨exists_of_gives (by decide), task_keeps_configuration.1, task_keeps_configuration.2, by decide,
    fun _ _ h => by cases h⟩

theorem witness_DeliveriesCounted :
    (∃ t, exec .rxEnd (stored00 .inFrame idle) = .next t)
      ∧ (∀ n kind chunk rxLink, Instr.rxEnd ≠ .init n kind chunk rxLink)
      ∧ Instr.rxEnd ≠ .teardown :=
  ⟨exists_of_gives (by decide), fun _ _ _ _ h => (by cases h), fun h => (by cases h)⟩

theorem witness_DeliveredLengthWithinLimits : Inv tasking ∧ ∃ t, step tasking = .next t :=
  witness_StepKeepsInvariant

theorem witness_InstancesShareNothing :
    (0 : Nat) ≠ 1 ∧ (∃ a, stepInstance 0 [tasking, base] = .next a)
      ∧ ∃ b, stepInstance 1 [tasking, base] = .next b :=
  ⟨by decide, ⟨_, rfl⟩, ⟨_, rfl⟩⟩

end Sys2Proof.Tests
end

section
/-! PROOFS. Scope: the step (O4), the power-on state (O7), and that no step of a good state faults
(O9). The invariant is carried through the ENC_STEPs and DEC_BYTEs of a TASK as `TaskInv`. -/

namespace Sys2Proof.Machine

open Sys2Proof

/-! ## The step and the power-on state -/

/-- A step runs the command at the head of the port, where it decodes. -/
theorem step_of_decode_ok {s : State} {c : Command} {rest : List Command} {i : Instr}
    (hp : s.hostPort = c :: rest) (hd : decode s.build.linkIdW c = .ok i) :
    step s = exec i { s with hostPort := rest } := by
  simp [step, hp, hd]

/-- A step refuses the command at the head of the port, where it does not decode. -/
theorem step_of_decode_error {s : State} {c : Command} {rest : List Command} {r : Reject}
    (hp : s.hostPort = c :: rest) (hd : decode s.build.linkIdW c = .error r) :
    step s = .refused (.malformedCommand r) := by
  simp [step, hp, hd]

/-- With an empty port a step is idle. -/
theorem step_of_no_command {s : State} (hp : s.hostPort = []) : step s = .next s := by
  simp [step, hp]

/-- Settles O4: one equation of `step` for each clause. -/
theorem stepRunsDecodedCommand : Obligations.StepRunsDecodedCommand :=
  ⟨fun _ _ _ _ => step_of_decode_ok, fun _ => step_of_no_command,
    fun _ _ _ _ => step_of_decode_error⟩

/-- The build parameters of the power-on state are legal whatever the free values are (R8). -/
theorem buildOk_reset : BuildOk State.reset.build := by
  simp only [BuildOk, State.reset, Config.bufCap, Config.linkIdW]
  omega

/-- Settles O7: the build is legal, nothing is written, and every register is 0. -/
theorem powerOnMeetsInvariant : Obligations.PowerOnMeetsInvariant where
  build := buildOk_reset
  txWf := rfl
  rxWf := rfl
  txInside := fun _ _ => rfl
  rxInside := fun _ _ => rfl
  config := nofun
  chunk := nofun
  streamZero := fun _ => ⟨rfl, rfl, rfl⟩
  linkIds := ⟨Nat.two_pow_pos _, Nat.two_pow_pos _⟩
  sizes := ⟨Nat.le_refl _, Nat.zero_le _⟩
  txSizeLegal := .inl rfl
  txIdle := fun _ => ⟨rfl, rfl⟩
  txAwaiting := fun _ => rfl
  txEscaped := nofun
  pending := fun h => absurd rfl h
  rxSizeLe := Nat.zero_le _
  rxAwaiting := fun _ => rfl
  rxWritten := fun _ hi => absurd hi (Nat.not_lt_zero _)
  notLive := fun _ => rfl
  noOutput := rfl

/-! ## Reads that cannot stop -/

/-- A run of reads answers where each of its reads does. -/
theorem readBytes_next {b : Buffer} {s : State} {count i : Nat}
    (h : ∀ k, k < count → ∃ v, readByte b (i + k) s = .next v) :
    ∃ vs, readBytes b i s count = .next vs := by
  induction count generalizing i with
  | zero => exact ⟨[], rfl⟩
  | succ count ih =>
    obtain ⟨v, hv⟩ := h 0 (by omega)
    obtain ⟨vs, hvs⟩ := ih (i := i + 1) fun k hk => by
      rw [show i + 1 + k = i + (k + 1) by omega]
      exact h (k + 1) (by omega)
    exact ⟨v :: vs, by rw [Nat.add_zero] at hv; simp [readBytes, hv, hvs]⟩

/-- The bytes that SEND stores are two more than the payload's (R84). -/
@[simp] theorem length_withCrc (p : List Byte) : (withCrc p).length = p.length + 2 := by
  simp [withCrc, crcBytes, lowHigh]

/-! ## The invariant inside a TASK -/

/-- What holds of a live core between the codec steps of a TASK: the invariant, but for the
encoder's output, which is collected until `tx_send` (R190). -/
structure TaskInv (s : State) : Prop where
  live : s.live = true
  inv : Inv { s with encOut := [] }

/-- A live good state is one that a TASK can begin in. -/
theorem Inv.taskInv {s : State} (h : Inv s) (hl : s.live = true) : TaskInv s := by
  refine ⟨hl, ?_⟩
  rw [← h.noOutput]
  exact h

/-- `s` with the records of `v` that the invariant of a live core does not look at: the ports,
the statistics counters and the encoder's output. -/
def State.withRecordsOf (s v : State) : State :=
  { s with
    statSof := v.statSof
    statTxFrames := v.statTxFrames
    statRxFrames := v.statRxFrames
    encOut := v.encOut
    hostPort := v.hostPort
    replies := v.replies
    txReadyIn := v.txReadyIn
    rxReadyIn := v.rxReadyIn
    rxIn := v.rxIn
    draws := v.draws
    events := v.events }

section TaskInv
variable {s t : State}

/-- What is asked of a core that is not live is not asked here. -/
theorem TaskInv.elim_notLive {P : Prop} (h : TaskInv s) (hl : s.live = false) : P :=
  Bool.noConfusion (h.live.symm.trans hl)

/-- A state that differs in its records alone is as good. -/
theorem TaskInv.of_records (h : TaskInv s) (ht : t = s.withRecordsOf t) : TaskInv t := by
  rw [ht]
  exact ⟨h.live, { h.inv with
    notLive := h.elim_notLive
    noOutput := rfl }⟩

theorem TaskInv.afterTxReady (h : TaskInv s) : TaskInv (txReady s).2 :=
  h.of_records (by unfold txReady; split <;> rfl)

theorem TaskInv.afterRxReady (h : TaskInv s) : TaskInv (rxReady s).2 :=
  h.of_records (by unfold rxReady; split <;> rfl)

theorem TaskInv.afterRxRecv {r : LinkUnit × State} (h : TaskInv s) (hr : rxRecv s = .next r) :
    TaskInv r.2 :=
  h.of_records (by rw [(rxRecv_spec hr).2]; rfl)

/-- N + 2 bytes of each buffer exist, and an index of one fits a size register (R8, R22). -/
theorem TaskInv.capacity (h : TaskInv s) :
    s.cfgN.toNat + 2 ≤ s.build.bufCap ∧ s.build.bufCap < 2 ^ 16 :=
  ⟨(h.inv.config h.live).2, h.inv.build.2.1⟩

/-- Every byte of the pending frame can be read (R35, R57). -/
theorem TaskInv.readByte_tx (h : TaskInv s) {i : Nat} (hi : i < s.txSize.toNat) :
    ∃ b, readByte .tx i s = .next b := by
  have hsize : s.txSize.toNat ≤ s.cfgN.toNat + 2 := h.inv.sizes.2
  have hcap := h.capacity.1
  have hne : s.txSize ≠ 0 := fun h0 => by simp [h0] at hi
  obtain ⟨p, hp, hold⟩ := h.inv.pending hne
  have hlen : i < (withCrc p).length := by rw [length_withCrc]; exact hp ▸ hi
  exact ⟨(withCrc p)[i], readByte_eq_next.2
    ⟨by omega, (hold i hlen).trans (List.getElem?_eq_getElem hlen)⟩⟩

/-- Every byte of the frame received so far can be read (R57). -/
theorem TaskInv.readByte_rx (h : TaskInv s) {i : Nat} (hi : i < s.rxSize.toNat) :
    ∃ b, readByte .rx i s = .next b := by
  have hsize : s.rxSize.toNat ≤ s.cfgN.toNat + 2 := h.inv.rxSizeLe
  have hcap := h.capacity.1
  obtain ⟨b, hb⟩ := Option.isSome_iff_exists.1 (h.inv.rxWritten i hi)
  exact ⟨b, readByte_eq_next.2 ⟨by omega, hb⟩⟩

/-! ## ENC_STEP -/

/-- Bytes that are not all sent are some bytes (R50). -/
theorem TaskInv.sent_lt (h : TaskInv s) (hne : s.sentSize ≠ s.txSize) :
    s.sentSize.toNat < s.txSize.toNat :=
  Nat.lt_of_le_of_ne h.inv.sizes.1 fun he => hne (BitVec.eq_of_toNat_eq he)

/-- With a frame pending, an ENC_STEP has a case (R130). -/
theorem TaskInv.txCase_next (h : TaskInv s) (hp : s.txSize ≠ 0) : ∃ c, txCase s = .next c := by
  unfold txCase
  rw [if_neg hp]
  split
  · rename_i hf
    obtain ⟨b, hb⟩ := h.readByte_tx (h.sent_lt hf.1)
    exact ⟨_, by rw [hb]; rfl⟩
  · exact ⟨_, rfl⟩

/-- The closing delimiter leaves no frame pending (R52). -/
theorem TaskInv.close (h : TaskInv s) :
    TaskInv { s with sentSize := 0, txSize := 0, txState := .awaitingDelimiter } :=
  ⟨h.live, { h.inv with
    sizes := ⟨Nat.le_refl _, Nat.zero_le _⟩
    txSizeLegal := .inl rfl
    txIdle := fun _ => ⟨rfl, rfl⟩
    txAwaiting := fun _ => rfl
    txEscaped := nofun
    pending := fun h0 => absurd rfl h0
    notLive := h.elim_notLive }⟩

/-- The encoder may go to IN_FRAME, with the next byte sent or not (R50). -/
theorem TaskInv.toInFrame (h : TaskInv s) (hp : s.txSize ≠ 0) {n : Size}
    (hn : n.toNat ≤ s.txSize.toNat) : TaskInv { s with sentSize := n, txState := .inFrame } :=
  ⟨h.live, { h.inv with
    sizes := ⟨hn, h.inv.sizes.2⟩
    txIdle := fun h0 => absurd h0 hp
    txAwaiting := nofun
    txEscaped := nofun
    notLive := h.elim_notLive }⟩

/-- The encoder may go to IN_ESCAPE before a reserved byte (R54). -/
theorem TaskInv.toInEscape (h : TaskInv s) (hp : s.txSize ≠ 0)
    (hlt : s.sentSize.toNat < s.txSize.toNat) {b : Byte}
    (hb : s.txBuf.read s.sentSize.toNat = some b) (hr : reserved b = true) :
    TaskInv { s with txState := .inEscape } :=
  ⟨h.live, { h.inv with
    txIdle := fun h0 => absurd h0 hp
    txAwaiting := nofun
    txEscaped := fun _ => ⟨hlt, by simpa [hb] using reserved_iff.1 hr⟩
    notLive := h.elim_notLive }⟩

/-- One more byte sent, where one is left. -/
theorem TaskInv.sendOne (h : TaskInv s) (hp : s.txSize ≠ 0)
    (hlt : s.sentSize.toNat < s.txSize.toNat) :
    TaskInv { s with sentSize := s.sentSize + 1, txState := .inFrame } :=
  h.toInFrame hp (by bv_omega)

/-- The selected case of an ENC_STEP can be done, keeps the invariant, and ends the frame only by
its closing delimiter (R130). -/
theorem TaskInv.txAct_next (h : TaskInv s) {c : TxCase} (hc : txCase s = .next c) :
    ∃ t, txAct c s = .next t ∧ TaskInv t ∧ (c ≠ .close → t.txSize ≠ 0) := by
  obtain ⟨hp, ⟨-, rfl⟩ | ⟨-, -, rfl⟩ | ⟨hne, hst, b, hb, rfl⟩ | ⟨hne, -, rfl⟩⟩ := txCase_eq_next hc
  · exact ⟨_, rfl, h.close.of_records rfl, fun hn => absurd rfl hn⟩
  · exact ⟨_, rfl, (h.toInFrame hp h.inv.sizes.1).of_records rfl, fun _ => hp⟩
  · have hlt := h.sent_lt hne
    cases hr : reserved b with
    | true =>
      have hread := (readByte_eq_next.1 hb).2
      exact ⟨_, rfl, (h.toInEscape hp hlt hread hr).of_records rfl, fun _ => hp⟩
    | false =>
      exact ⟨_, andThen_eq_next.2 ⟨b, hb, rfl⟩,
        (h.sendOne hp hlt).of_records (by rw [← hst]; rfl), fun _ => hp⟩
  · have hlt := h.sent_lt hne
    obtain ⟨b, hb⟩ := h.readByte_tx hlt
    exact ⟨_, andThen_eq_next.2 ⟨b, hb, rfl⟩, (h.sendOne hp hlt).of_records rfl, fun _ => hp⟩

/-- With a frame pending an ENC_STEP answers, and the frame stays pending until it is closed. -/
theorem TaskInv.encStep_next (h : TaskInv s) (hp : s.txSize ≠ 0) :
    ∃ t closed, encStep s = .next (t, closed) ∧ TaskInv t ∧ (closed = false → t.txSize ≠ 0) := by
  obtain ⟨c, hc⟩ := h.txCase_next hp
  obtain ⟨t, ht, htask, hopen⟩ := h.txAct_next hc
  exact ⟨t, _, encStep_eq_next.2 ⟨c, hc, ht, rfl⟩, htask, fun he => hopen (by simpa using he)⟩

/-- The ENC_STEPs of one unit answer: none of them is idle (R191, R193). -/
theorem TaskInv.encSteps_next (h : TaskInv s) (hp : s.txSize ≠ 0) (more : Nat) :
    ∃ t, encSteps more s = .next t ∧ TaskInv t := by
  induction more generalizing s with
  | zero =>
    obtain ⟨t, closed, hs, ht, -⟩ := h.encStep_next hp
    exact ⟨t, andThen_eq_next.2 ⟨_, hs, rfl⟩, ht⟩
  | succ more ih =>
    obtain ⟨t, closed, hs, ht, hopen⟩ := h.encStep_next hp
    cases closed with
    | true => exact ⟨t, andThen_eq_next.2 ⟨_, hs, rfl⟩, ht⟩
    | false =>
      obtain ⟨u, hu, hinv⟩ := ih ht (hopen rfl)
      exact ⟨u, andThen_eq_next.2 ⟨_, hs, hu⟩, hinv⟩

/-- The transmit sub-step answers and keeps the invariant (R190, R191). -/
theorem TaskInv.txSubStep_next (h : TaskInv s) : ∃ t, txSubStep s = .next t ∧ TaskInv t := by
  unfold txSubStep
  dsimp only
  split
  · rename_i hq
    have hstart : TaskInv { (txReady s).2 with encOut := [] } := h.afterTxReady.of_records rfl
    obtain ⟨t, ht, hinv⟩ := hstart.encSteps_next hq.2 (moreSteps (txReady s).2)
    exact ⟨txSend t, andThen_eq_next.2 ⟨t, ht, rfl⟩, hinv.of_records rfl⟩
  · exact ⟨_, rfl, h.afterTxReady⟩

/-! ## DEC_BYTE -/

/-- The decoder may start over, with nothing received, in any state (R150, R152). -/
theorem TaskInv.restartRx (h : TaskInv s) (st : Framing) :
    TaskInv { s with rxState := st, rxSize := 0 } :=
  ⟨h.live, { h.inv with
    rxSizeLe := Nat.zero_le _
    rxAwaiting := fun _ => rfl
    rxWritten := fun _ hi => absurd hi (Nat.not_lt_zero _)
    notLive := h.elim_notLive }⟩

/-- The decoder may go to a state inside a frame. -/
theorem TaskInv.insideFrame (h : TaskInv s) {st : Framing} (hst : st ≠ .awaitingDelimiter) :
    TaskInv { s with rxState := st } :=
  ⟨h.live, { h.inv with
    rxAwaiting := fun h0 => absurd h0 hst
    notLive := h.elim_notLive }⟩

/-- FINALIZE answers: it reads bytes that were received (R57, R151). -/
theorem TaskInv.finalize_next (h : TaskInv s) : ∃ t, finalize s = .next t := by
  unfold finalize
  split
  · exact ⟨s, rfl⟩
  · obtain ⟨p, hp⟩ := readBytes_next (count := s.rxSize.toNat - 2) (i := 0) fun k hk =>
      h.readByte_rx (i := 0 + k) (by omega)
    obtain ⟨lo, hlo⟩ := h.readByte_rx (i := s.rxSize.toNat - 2) (by omega)
    obtain ⟨hi, hhi⟩ := h.readByte_rx (i := s.rxSize.toNat - 1) (by omega)
    simp only [finalizeFrame, hp, hlo, hhi, andThen_next]
    split
    · exact ⟨_, rfl⟩
    · exact ⟨s, rfl⟩

/-- FINALIZE changes records alone. -/
theorem TaskInv.afterFinalize (h : TaskInv s) (ht : finalize s = .next t) : TaskInv t := by
  obtain rfl | ⟨p, -, -, rfl⟩ := finalize_eq_next ht
  · exact h
  · exact h.of_records rfl

/-- The end of a frame answers and leaves nothing received. -/
theorem TaskInv.rxEndAct_next (h : TaskInv s) : ∃ t, rxEndAct s = .next t ∧ TaskInv t := by
  obtain ⟨u, hu⟩ := h.finalize_next
  exact ⟨_, andThen_eq_next.2 ⟨u, hu, rfl⟩, (h.afterFinalize hu).restartRx _⟩

/-- Inside a frame that is not full there is room in RXBUF for one more byte (R56, R60, R153). -/
theorem TaskInv.rxStore_next (h : TaskInv s) (hfull : rxFull s = false)
    (hst : s.rxState ≠ .awaitingDelimiter) (b : Byte) :
    ∃ t, rxStore b s = .next t ∧ TaskInv t := by
  have hle : s.rxSize.toNat ≤ s.cfgN.toNat + 2 := h.inv.rxSizeLe
  have hne : s.rxSize.toNat ≠ s.cfgN.toNat + 2 := by simpa [rxFull] using hfull
  obtain ⟨hcap, hmax⟩ := h.capacity
  have hroom : s.rxSize.toNat < s.build.bufCap := by omega
  have hsucc : (s.rxSize + 1).toNat = s.rxSize.toNat + 1 := by bv_omega
  refine ⟨_, rxStore_eq_next.2 ⟨hroom, rfl⟩, h.live, { h.inv with
    rxWf := Memory.wf_write _ _ h.inv.rxWf
    rxInside := inside_write b hroom h.inv.rxInside
    rxSizeLe := ?_
    rxAwaiting := fun h0 => absurd h0 hst
    rxWritten := ?_
    notLive := h.elim_notLive }⟩
  · change (s.rxSize + 1).toNat ≤ s.cfgN.toNat + 2
    omega
  · intro i (hi : i < (s.rxSize + 1).toNat)
    rw [Memory.read_write]
    split
    · rfl
    · have hlt : i < s.rxSize.toNat := by omega
      exact h.inv.rxWritten i hlt

/-- A substitute inside a frame that is not full is stored, and the frame goes on. -/
theorem TaskInv.rxSubstituteAct_next (h : TaskInv s) (hfull : rxFull s = false)
    (hst : s.rxState ≠ .awaitingDelimiter) (b : Byte) :
    ∃ t, rxSubstituteAct b s = .next t ∧ TaskInv t := by
  obtain ⟨u, hu, hinv⟩ := h.rxStore_next hfull hst b
  exact ⟨_, andThen_eq_next.2 ⟨u, hu, rfl⟩, hinv.insideFrame nofun⟩

/-- A byte is stored only inside a frame that is not full (R87). -/
theorem room_of_classify {st : Framing} {full : Bool} {x : Byte} {c : RxClass}
    (h : classify st full x = c) (hc : c = .data ∨ c = .substDelim ∨ c = .substEsc) :
    full = false ∧ st ≠ .awaitingDelimiter := by
  subst h
  unfold classify at hc
  cases st with
  | awaitingDelimiter => grind
  | inFrame | inEscape =>
    cases full with
    | false => exact ⟨rfl, nofun⟩
    | true => grind

/-- DEC_BYTE answers on every byte and keeps the invariant (R150). -/
theorem TaskInv.decByte_next (h : TaskInv s) (x : Byte) :
    ∃ t, decByte x s = .next t ∧ TaskInv t := by
  unfold decByte
  cases hc : rxClassOf x s with
  | start => exact ⟨_, rfl, (h.restartRx .inFrame).of_records rfl⟩
  | ignore => exact ⟨s, rfl, h⟩
  | escape => exact ⟨_, rfl, h.insideFrame nofun⟩
  | frameEnd => exact h.rxEndAct_next
  | overflow | full | badEscape => exact ⟨_, rfl, h.restartRx _⟩
  | data =>
    obtain ⟨hfull, hst⟩ := room_of_classify hc (by simp)
    exact h.rxStore_next hfull hst x
  | substDelim | substEsc =>
    obtain ⟨hfull, hst⟩ := room_of_classify hc (by simp)
    exact h.rxSubstituteAct_next hfull hst _

/-- A run of DEC_BYTEs answers and keeps the invariant (R195, R200). -/
theorem TaskInv.decBytes_next (h : TaskInv s) (bs : List Byte) :
    ∃ t, decBytes bs s = .next t ∧ TaskInv t := by
  induction bs generalizing s with
  | nil => exact ⟨s, rfl, h⟩
  | cons x rest ih =>
    obtain ⟨t, ht, hinv⟩ := h.decByte_next x
    obtain ⟨u, hu, hinv'⟩ := ih hinv
    exact ⟨u, andThen_eq_next.2 ⟨t, ht, hu⟩, hinv'⟩

/-- Every unit is decoded, and the invariant kept (R194, R195). -/
theorem TaskInv.decodeUnit_next (h : TaskInv s) (u : LinkUnit) :
    ∃ t, decodeUnit u s = .next t ∧ TaskInv t := by
  cases u with
  | byte x => exact h.decByte_next x
  | message id bytes =>
    simp only [decodeUnit]
    split
    · exact h.decBytes_next bytes
    · exact ⟨s, rfl, h⟩

/-- `rx_recv` gives a unit or refuses one; it never faults. -/
theorem rxRecv_ne_fault {r : Fault} : rxRecv s ≠ .fault r := by
  unfold rxRecv
  split
  · split <;> nofun
  · nofun

/-- The receive sub-step does not fault: what stops it is a refused unit alone (R252). -/
theorem TaskInv.rxSubStep_ne_fault (h : TaskInv s) {r : Fault} : rxSubStep s ≠ .fault r := by
  unfold rxSubStep
  dsimp only
  split
  · unfold receive
    intro hf
    obtain hrecv | ⟨⟨u, s'⟩, hrecv, hdec⟩ := andThen_eq_fault.1 hf
    · exact rxRecv_ne_fault hrecv
    · obtain ⟨t, ht, -⟩ := (h.afterRxReady.afterRxRecv hrecv).decodeUnit_next u
      rw [ht] at hdec
      cases hdec
  · nofun

end TaskInv

/-! ## The commands -/

section Commands
variable {s : State}

/-- TASK does not fault: on a live core neither of its sub-steps does (R190). -/
theorem execTask_ne_fault (h : Inv s) {r : Fault} : execTask s ≠ .fault r := by
  unfold execTask
  split
  · nofun
  · rename_i hl
    obtain ⟨s1, h1, hinv⟩ := (h.taskInv (by simpa using hl)).txSubStep_next
    intro hf
    rw [h1, andThen_next] at hf
    obtain hrx | ⟨s2, -, hreply⟩ := andThen_eq_fault.1 hf
    · exact hinv.rxSubStep_ne_fault hrx
    · cases hreply

/-- A payload and its CRC that fit TXBUF can be loaded (R60, R180). -/
theorem loadPayload_next (linkId : LinkId) {payload : List Byte}
    (hfit : payload.length + 2 ≤ s.build.bufCap) :
    ∃ t, loadPayload linkId payload s = .next t := by
  obtain ⟨m, hm, -⟩ := writeBytes_inside (b := .tx) (vs := withCrc payload) (i := 0) (s := s)
    (by simpa using hfit)
  exact ⟨_, andThen_eq_next.2 ⟨_, hm, rfl⟩⟩

/-- SEND answers: a payload of at most N bytes fits TXBUF with its CRC (R22). -/
theorem execSend_next (h : Inv s) (linkId : LinkId) (payload : List Byte) :
    ∃ t, execSend linkId payload s = .next t := by
  obtain ⟨hok, he⟩ | ⟨-, he⟩ := execSend_cases linkId payload s
  · obtain ⟨hl, hlen, -, -⟩ := sendStatus_ok.1 hok
    have hcap := (h.config hl).2
    obtain ⟨t, ht⟩ := loadPayload_next linkId (payload := payload) (s := s) (by omega)
    exact ⟨_, he.trans (andThen_eq_next.2 ⟨t, ht, rfl⟩)⟩
  · exact ⟨_, he⟩

/-- No command faults in a good state. -/
theorem exec_ne_fault (h : Inv s) {i : Instr} (hi : i.isCommand = true) {r : Fault} :
    exec i s ≠ .fault r := by
  cases i with
  | init n kind chunk rxLink =>
    change execInit n kind chunk rxLink s ≠ _
    unfold execInit
    split <;> nofun
  | send linkId payload =>
    change execSend linkId payload s ≠ _
    obtain ⟨t, ht⟩ := execSend_next h linkId payload
    rw [ht]
    nofun
  | task => exact execTask_ne_fault h
  | readReg reg =>
    change execReadReg reg s ≠ _
    unfold execReadReg
    split <;> nofun
  | teardown | crc16 data | illegalCmd op => nofun
  | _ => cases hi

/-- Taking a command off the port leaves a good state good. -/
theorem Inv.withHostPort (h : Inv s) (rest : List Command) : Inv { s with hostPort := rest } :=
  { h with notLive := fun hl => congrArg (fun u => { u with hostPort := rest }) (h.notLive hl) }

end Commands

/-- Settles O9: a step is idle, refuses a command, or runs one in a good state, and there no command
faults; the invariant is carried through the codec steps of a TASK. -/
theorem stepNeverFaults : Obligations.StepNeverFaults := by
  intro s r h
  cases hp : s.hostPort with
  | nil => rw [step_of_no_command hp]; nofun
  | cons c rest =>
    cases hd : decode s.build.linkIdW c with
    | error e => rw [step_of_decode_error hp hd]; nofun
    | ok i =>
      rw [step_of_decode_ok hp hd]
      obtain ⟨rfl, -⟩ := decode_eq_ok.1 hd
      exact exec_ne_fault (h.withHostPort rest) (instr_isCommand c)

end Sys2Proof.Machine
end

section
/-! PROOFS. Scope: the state (spec/10). What a step and an instruction can do, said once; that every
step keeps the invariant (O8); the frame of a TASK and where it stores (O40, O41); what only INIT,
TEARDOWN and SEND change (O55, O56); deliveries (O57, O58); and two TASKs that find nothing to do or
are refused (O48, O50). -/

namespace Sys2Proof.Machine

open Sys2Proof

/-! ## What a step can do -/

/-- A step that answers is idle, or runs the command of the port, whose operands fit. -/
theorem step_eq_next {s t : State} (h : step s = .next t) :
    t = s ∨ ∃ (c : Command) (rest : List Command),
      c.instr.wellFormed s.build.linkIdW = true
        ∧ exec c.instr { s with hostPort := rest } = .next t := by
  cases hp : s.hostPort with
  | nil =>
    rw [step_of_no_command hp] at h
    cases h
    exact .inl rfl
  | cons c rest =>
    cases hd : decode s.build.linkIdW c with
    | error e =>
      rw [step_of_decode_error hp hd] at h
      cases h
    | ok i =>
      rw [step_of_decode_ok hp hd] at h
      obtain ⟨rfl, hw⟩ := decode_eq_ok.1 hd
      exact .inr ⟨c, rest, hw, h⟩

/-! ## What the sub-steps of a TASK can do -/

section SubSteps
variable {s t : State}

/-- A part followed by nothing is the part. -/
@[simp] theorem andThen_next_right {α : Type} (o : Host.Outcome α Fault Refusal) :
    (andThen o fun a => .next a) = o := by
  cases o <;> rfl

/-- Decoding a unit is a run of DEC_BYTEs on the bytes that pass the filter (R194, R195). -/
theorem decodeUnit_eq_decBytes (u : LinkUnit) (s : State) :
    decodeUnit u s = decBytes (decodedBytes s u) s := by
  cases u with
  | byte x => exact (andThen_next_right (decByte x s)).symm
  | message id bytes =>
    simp only [decodeUnit, decodedBytes]
    split <;> rfl

/-- Where the link has nothing to receive, the receive sub-step is its query (R197). -/
theorem rxSubStep_of_not_ready (h : (rxReady s).1 = false) :
    rxSubStep s = .next (rxReady s).2 := by
  simp [rxSubStep, h]

/-- Where the link has a unit, the receive sub-step is `rx_recv` and a run of DEC_BYTEs. -/
theorem rxSubStep_of_ready (h : (rxReady s).1 = true) :
    rxSubStep s = andThen (rxRecv (rxReady s).2) fun r => decBytes (decodedBytes r.2 r.1) r.2 := by
  simp only [rxSubStep, h, if_true, receive, decodeUnit_eq_decBytes]

/-- A receive sub-step that answers is its query alone, or takes a unit and decodes it. -/
theorem rxSubStep_eq_next (h : rxSubStep s = .next t) :
    t = (rxReady s).2
      ∨ (rxReady s).1 = true ∧ ∃ r, rxRecv (rxReady s).2 = .next r
          ∧ decBytes (decodedBytes r.2 r.1) r.2 = .next t := by
  cases hq : (rxReady s).1 with
  | false =>
    rw [rxSubStep_of_not_ready hq] at h
    cases h
    exact .inl rfl
  | true =>
    rw [rxSubStep_of_ready hq] at h
    exact .inr ⟨rfl, andThen_eq_next.1 h⟩

/-- What the decoder finds after the two receive calls: the state before them, but for the records
of the ports. -/
theorem rxRecv_rxReady {r : LinkUnit × State} (h : rxRecv (rxReady s).2 = .next r) :
    r.2 = { s with
      rxReadyIn := r.2.rxReadyIn
      rxIn := r.2.rxIn
      draws := r.2.draws
      events := s.events ++ [.rxReady (rxReady s).1, .rxRecv r.1] } := by
  rw [(rxRecv_spec h).2]
  unfold rxReady
  split <;> simp [State.emit]

/-- A TASK that answers says NOT_LIVE, or is its two sub-steps and OK (R190, R199). -/
theorem execTask_eq_next (h : execTask s = .next t) :
    (s.live = false ∧ t = s.reply .notLive 0)
      ∨ s.live = true ∧ ∃ s1 s2, txSubStep s = .next s1 ∧ rxSubStep s1 = .next s2
          ∧ t = s2.reply .ok 0 := by
  cases hl : s.live with
  | false =>
    simp only [execTask, hl, if_true] at h
    cases h
    exact .inl ⟨rfl, rfl⟩
  | true => exact .inr ⟨rfl, (execTask_live hl).1 h⟩

end SubSteps

/-! ## What SEND can do -/

section Send
variable {s t : State} {linkId : LinkId} {p : List Byte}

/-- A run of writes that answers lies inside the buffer (R60). -/
theorem writeBytes_fits {b : Buffer} {vs : List Byte} {i : Nat} (hi : i ≤ s.build.bufCap)
    (h : writeBytes b i vs s = .next t) : i + vs.length ≤ s.build.bufCap := by
  induction vs generalizing i s with
  | nil => exact hi
  | cons v rest ih =>
    obtain ⟨u, hu, hrest⟩ := andThen_eq_next.1 h
    obtain ⟨hlt, rfl⟩ := writeByte_eq_next.1 hu
    have := ih (by rw [setBuffer_build]; exact hlt) hrest
    rw [setBuffer_build] at this
    rw [List.length_cons]
    omega

/-- A payload that is loaded stands in TXBUF with its CRC, and changes no other byte there; beside
TXBUF only the frame's size and identifier change (R180, R183). -/
theorem loadPayload_eq_next (h : loadPayload linkId p s = .next t) :
    ∃ m, t = { s with
        txBuf := m
        txSize := BitVec.ofNat 16 (p.length + 2)
        sentSize := 0
        txLinkId := if s.cfgKind = .message then linkId else s.txLinkId }
      ∧ Holds m (withCrc p)
      ∧ (∀ a, p.length + 2 ≤ a → m.read a = s.txBuf.read a)
      ∧ (s.txBuf.wf = true → m.wf = true) := by
  obtain ⟨u, hu, ht⟩ := andThen_eq_next.1 h
  obtain ⟨m, hm, hin, hout, hwf⟩ := writeBytes_inside (writeBytes_fits (Nat.zero_le _) hu)
  cases hm.symm.trans hu
  cases ht
  refine ⟨m, rfl, fun k hk => ?_, fun a ha => hout a (by simpa using ha), hwf⟩
  simpa using hin k hk

/-- A SEND that answers only replies, or loads the payload it accepts and replies OK (R180). -/
theorem execSend_eq_next (h : execSend linkId p s = .next t) :
    (∃ st, t = s.reply st 0)
      ∨ sendStatus s p = .ok ∧ ∃ u, loadPayload linkId p s = .next u ∧ t = u.reply .ok 0 := by
  obtain ⟨hok, he⟩ | ⟨-, he⟩ := execSend_cases linkId p s
  · rw [he] at h
    obtain ⟨u, hu, ht⟩ := andThen_eq_next.1 h
    cases ht
    exact .inr ⟨hok, u, hu, rfl⟩
  · rw [he] at h
    cases h
    exact .inl ⟨_, rfl⟩

end Send

/-! ## What an instruction can do -/

/-- What an instruction other than INIT and TEARDOWN does when it goes from `s` to `t`. -/
inductive ExecCase (s t : State) : Instr → Prop where
  | send {linkId : LinkId} {p : List Byte} (h : execSend linkId p s = .next t) :
      ExecCase s t (.send linkId p)
  | task (h : execTask s = .next t) : ExecCase s t .task
  | answer {i : Instr} (st : Status) (v : Nat) (h : t = s.reply st v) : ExecCase s t i
  | rxRow {i : Instr} (c : RxClass) (x : Byte) (h : rxAct c x s = .next t) : ExecCase s t i
  | txRow {i : Instr} (c : TxCase) (h : txAct c s = .next t) : ExecCase s t i

section ExecCase
variable {s t : State}

theorem ExecCase.of_runRxRow {i : Instr} {c : RxClass} {x : Byte} (h : runRxRow c x s = .next t) :
    ExecCase s t i := .rxRow c x (runRxRow_eq_next.1 h).2

theorem ExecCase.of_runTxRow {i : Instr} {c : TxCase} (h : runTxRow c s = .next t) :
    ExecCase s t i := .txRow c (runTxRow_eq_next.1 h).2

/-- READ_REG only replies (R224). -/
theorem execReadReg_eq_next {reg : Byte} (h : execReadReg reg s = .next t) :
    ∃ st v, t = s.reply st v := by
  unfold execReadReg at h
  split at h <;> cases h <;> exact ⟨_, _, rfl⟩

/-- Every instruction but INIT and TEARDOWN is a SEND, a TASK, a mere reply or a codec row. -/
theorem exec_cases {i : Instr} (h : exec i s = .next t)
    (hinit : ∀ n kind chunk rxLink, i ≠ .init n kind chunk rxLink) (htd : i ≠ .teardown) :
    ExecCase s t i := by
  cases i with
  | init n kind chunk rxLink => exact absurd rfl (hinit n kind chunk rxLink)
  | teardown => exact absurd rfl htd
  | send linkId p => exact .send h
  | task => exact .task h
  | crc16 data => cases h; exact .answer _ _ rfl
  | illegalCmd op => cases h; exact .answer _ _ rfl
  | readReg reg =>
    obtain ⟨st, v, ht⟩ := execReadReg_eq_next h
    exact .answer st v ht
  | rxStart | rxIgnore | rxEscape | rxEnd | rxOverflow | rxData | rxSubDelim | rxSubEsc | rxFull
  | rxBadEscape => exact .of_runRxRow h
  | txClose | txOpen | txEscape | txLiteral | txSubstitute => exact .of_runTxRow h

end ExecCase

/-! ## Every step keeps the invariant -/

section KeepsInvariant
variable {s t : State}

/-- A reply is a record alone. -/
theorem Inv.afterReply (h : Inv s) (st : Status) (v : Nat) : Inv (s.reply st v) :=
  { h with notLive := fun hl => congrArg (·.reply st v) (h.notLive hl) }

/-- TEARDOWN's state is good: it is the power-on state of the same build (R58, R223). -/
theorem Inv.afterCleared (h : Inv s) : Inv s.cleared where
  build := h.build
  txWf := rfl
  rxWf := rfl
  txInside := fun _ _ => rfl
  rxInside := fun _ _ => rfl
  config := nofun
  chunk := nofun
  streamZero := fun _ => ⟨rfl, rfl, rfl⟩
  linkIds := ⟨Nat.two_pow_pos _, Nat.two_pow_pos _⟩
  sizes := ⟨Nat.le_refl _, Nat.zero_le _⟩
  txSizeLegal := .inl rfl
  txIdle := fun _ => ⟨rfl, rfl⟩
  txAwaiting := fun _ => rfl
  txEscaped := nofun
  pending := fun h0 => absurd rfl h0
  rxSizeLe := Nat.zero_le _
  rxAwaiting := fun _ => rfl
  rxWritten := fun _ hi => absurd hi (Nat.not_lt_zero _)
  notLive := fun _ => rfl
  noOutput := h.noOutput

/-- INIT's validation says what R221 requires. -/
theorem configValid_iff {n : Size} {kind : LinkKind} {chunk : Size} :
    configValid s n kind chunk = true
      ↔ 1 ≤ n.toNat ∧ n.toNat + 2 ≤ s.build.bufCap ∧ (kind = .message → 1 ≤ chunk.toNat) := by
  cases kind <;> simp [configValid, and_assoc]

/-- INIT's state is good: it is the cleared state with a legal configuration (R220). -/
theorem Inv.afterConfigured (h : Inv s) {n : Size} {kind : LinkKind} {chunk : Size}
    {rxLink : LinkId} (hv : configValid s n kind chunk = true)
    (hid : rxLink < 2 ^ s.build.linkIdW) : Inv (configured n kind chunk rxLink s) := by
  obtain ⟨hn, hcap, hchunk⟩ := configValid_iff.1 hv
  exact { h.afterCleared with
    config := fun _ => ⟨hn, hcap⟩
    chunk := fun _ hk => by
      rw [configured_cfgKind] at hk
      rw [configured_cfgChunk, if_pos hk]
      exact hchunk hk
    streamZero := fun hk => by
      rw [configured_cfgKind] at hk
      simp [hk]
    linkIds := ⟨by
      rw [configured_rxLinkId]
      split
      · exact hid
      · exact Nat.two_pow_pos _, Nat.two_pow_pos _⟩
    sizes := ⟨Nat.le_refl _, Nat.zero_le _⟩
    rxSizeLe := Nat.zero_le _
    notLive := nofun }

/-- A payload that SEND accepts makes a pending frame (R50, R51, R180). -/
theorem Inv.afterLoadPayload (h : Inv s) {linkId : LinkId} {p : List Byte}
    (hok : sendStatus s p = .ok) (hid : linkId < 2 ^ s.build.linkIdW)
    (ht : loadPayload linkId p s = .next t) : Inv t := by
  obtain ⟨hl, hlen, hne, hfree⟩ := sendStatus_ok.1 hok
  obtain ⟨hst, -⟩ := h.txIdle hfree
  have hcap := (h.config hl).2
  have hmax : s.build.bufCap < 2 ^ 16 := h.build.2.1
  obtain ⟨m, rfl, hold, hout, hwf⟩ := loadPayload_eq_next ht
  have hsize : (BitVec.ofNat 16 (p.length + 2)).toNat = p.length + 2 :=
    by rw [BitVec.toNat_ofNat]; omega
  exact { h with
    txWf := hwf h.txWf
    txInside := fun a (ha : s.build.bufCap ≤ a) => (hout a (by omega)).trans (h.txInside a ha)
    streamZero := fun (hk : s.cfgKind = .stream) => by simpa [hk] using h.streamZero hk
    linkIds := ⟨h.linkIds.1, by
      dsimp only
      split
      · exact hid
      · exact h.linkIds.2⟩
    sizes := ⟨Nat.zero_le _, by dsimp only; omega⟩
    txSizeLegal := .inr (by dsimp only; omega)
    txIdle := fun _ => ⟨hst, rfl⟩
    txAwaiting := fun _ => rfl
    txEscaped := fun he => by cases hst.symm.trans he
    pending := fun _ => ⟨p, hsize, hold⟩
    notLive := fun h0 => by cases hl.symm.trans h0 }

/-- The transmit sub-step keeps the invariant. -/
theorem TaskInv.afterTxSubStep (h : TaskInv s) (ht : txSubStep s = .next t) : TaskInv t := by
  obtain ⟨u, hu, hinv⟩ := h.txSubStep_next
  obtain rfl : u = t := by simpa [hu] using ht
  exact hinv

/-- A run of DEC_BYTEs keeps the invariant. -/
theorem TaskInv.afterDecBytes (h : TaskInv s) {bs : List Byte} (ht : decBytes bs s = .next t) :
    TaskInv t := by
  obtain ⟨u, hu, hinv⟩ := h.decBytes_next bs
  obtain rfl : u = t := by simpa [hu] using ht
  exact hinv

/-- The receive sub-step keeps the invariant. -/
theorem TaskInv.afterRxSubStep (h : TaskInv s) (ht : rxSubStep s = .next t) : TaskInv t := by
  obtain rfl | ⟨-, r, hr, hdec⟩ := rxSubStep_eq_next ht
  · exact h.afterRxReady
  · exact (h.afterRxReady.afterRxRecv hr).afterDecBytes hdec

/-- Between commands, with no encoder output left, the invariant of a TASK is the whole one. -/
theorem TaskInv.inv_of_no_output (h : TaskInv s) (ho : s.encOut = []) : Inv s := by
  have hs : { s with encOut := [] } = s := by rw [← ho]
  exact hs ▸ h.inv

/-- TASK keeps the invariant (R190). -/
theorem Inv.afterTask (h : Inv s) (ht : execTask s = .next t) : Inv t := by
  obtain ⟨-, rfl⟩ | ⟨hl, s1, s2, h1, h2, rfl⟩ := execTask_eq_next ht
  · exact h.afterReply _ _
  · have hinv : TaskInv s2 := ((h.taskInv hl).afterTxSubStep h1).afterRxSubStep h2
    have hout : s2.encOut = [] := by
      rw [rxSubStep_frame h2]
      exact (txSubStep_frame h1).2 h.noOutput
    exact (hinv.inv_of_no_output hout).afterReply _ _

/-- SEND keeps the invariant (R180). -/
theorem Inv.afterSend (h : Inv s) {linkId : LinkId} {p : List Byte}
    (hid : linkId < 2 ^ s.build.linkIdW) (ht : execSend linkId p s = .next t) : Inv t := by
  obtain ⟨st, rfl⟩ | ⟨hok, u, hu, rfl⟩ := execSend_eq_next ht
  · exact h.afterReply _ _
  · exact (h.afterLoadPayload hok hid hu).afterReply _ _

/-- INIT keeps the invariant, whether it accepts the configuration or not (R220, R221). -/
theorem Inv.afterInit (h : Inv s) {n : Size} {kind : LinkKind} {chunk : Size} {rxLink : LinkId}
    (hid : rxLink < 2 ^ s.build.linkIdW) (ht : execInit n kind chunk rxLink s = .next t) :
    Inv t := by
  unfold execInit at ht
  split at ht
  · rename_i hv
    cases ht
    exact (h.afterConfigured hv hid).afterReply _ _
  · cases ht
    exact h.afterReply _ _

/-- Every command whose operands fit keeps the invariant. -/
theorem Inv.afterCommand (h : Inv s) {i : Instr} (hi : i.isCommand = true)
    (hw : i.wellFormed s.build.linkIdW = true) (ht : exec i s = .next t) : Inv t := by
  cases i with
  | init n kind chunk rxLink =>
    refine h.afterInit (fitsWidth_iff.1 ?_) ht
    simpa [Instr.wellFormed, Instr.reject] using hw
  | teardown => cases ht; exact h.afterCleared.afterReply _ _
  | send linkId p =>
    refine h.afterSend (fitsWidth_iff.1 ?_) ht
    by_contra hn
    simp [Instr.wellFormed, Instr.reject, hn] at hw
  | task => exact h.afterTask ht
  | crc16 data => cases ht; exact h.afterReply _ _
  | illegalCmd op => cases ht; exact h.afterReply _ _
  | readReg reg =>
    obtain ⟨st, v, rfl⟩ := execReadReg_eq_next ht
    exact h.afterReply st v
  | _ => cases hi

end KeepsInvariant

/-- Settles O8: an idle step holds the state, and every command whose operands fit keeps the
invariant. -/
theorem stepKeepsInvariant : Obligations.StepKeepsInvariant := by
  intro s t h ht
  obtain rfl | ⟨c, rest, hw, ht⟩ := step_eq_next ht
  · exact h
  · exact (h.withHostPort rest).afterCommand (instr_isCommand c) hw ht

/-! ## The frame of a TASK and of the codec rows -/

/-- `s` with what a TASK may change taken from `v`: everything but the build, LIVE, the
configuration, the link identifiers, TXBUF and the commands still to come. -/
def State.withTaskOf (s v : State) : State :=
  { s with
    txState := v.txState
    rxState := v.rxState
    txSize := v.txSize
    sentSize := v.sentSize
    rxSize := v.rxSize
    statSof := v.statSof
    statTxFrames := v.statTxFrames
    statRxFrames := v.statRxFrames
    rxBuf := v.rxBuf
    encOut := v.encOut
    replies := v.replies
    txReadyIn := v.txReadyIn
    rxReadyIn := v.rxReadyIn
    rxIn := v.rxIn
    draws := v.draws
    events := v.events }

section Frames
variable {s t u : State}

/-- The frame of a part and of the next part is the frame of both. -/
theorem withTaskOf_trans (h1 : t = s.withTaskOf t) (h2 : u = t.withTaskOf u) :
    u = s.withTaskOf u :=
  h2.trans (congrArg (·.withTaskOf u) h1)

theorem txAct_withTaskOf {c : TxCase} (h : txAct c s = .next t) : t = s.withTaskOf t := by
  obtain ⟨y, hy⟩ := txAct_frame h
  rw [hy]
  rfl

theorem rxAct_withTaskOf {c : RxClass} {x : Byte} (h : rxAct c x s = .next t) :
    t = s.withTaskOf t := by
  rw [rxAct_frame h]
  rfl

theorem execTask_withTaskOf (h : execTask s = .next t) : t = s.withTaskOf t := by
  obtain ⟨-, rfl⟩ | ⟨-, s1, s2, h1, h2, rfl⟩ := execTask_eq_next h
  · rfl
  · have htx : s1 = s.withTaskOf s1 := by rw [(txSubStep_frame h1).1]; rfl
    have hrx : s2 = s1.withTaskOf s2 := by rw [rxSubStep_frame h2]; rfl
    exact withTaskOf_trans (withTaskOf_trans htx hrx) rfl

/-- A SEND that answers changes TXBUF, the frame's registers and the replies alone. -/
theorem execSend_frame {linkId : LinkId} {p : List Byte} (h : execSend linkId p s = .next t) :
    t = { s with
      txBuf := t.txBuf
      txSize := t.txSize
      sentSize := t.sentSize
      txLinkId := t.txLinkId
      replies := t.replies } := by
  obtain ⟨st, rfl⟩ | ⟨-, u, hu, rfl⟩ := execSend_eq_next h
  · rfl
  · obtain ⟨m, rfl, -⟩ := loadPayload_eq_next hu
    rfl

/-- A SEND that answers while a frame is pending only replies (R180, R181). -/
theorem execSend_pending {linkId : LinkId} {p : List Byte} (hp : s.txSize ≠ 0)
    (h : execSend linkId p s = .next t) : ∃ st, t = s.reply st 0 := by
  obtain hst | ⟨hok, -⟩ := execSend_eq_next h
  · exact hst
  · exact absurd (sendStatus_ok.1 hok).2.2.2 hp

/-- Every instruction but INIT, TEARDOWN and SEND stays inside the frame of a TASK. -/
theorem ExecCase.send_or_withTaskOf {i : Instr} (h : ExecCase s t i) :
    (∃ linkId p, i = .send linkId p ∧ execSend linkId p s = .next t) ∨ t = s.withTaskOf t := by
  cases h with
  | send h => exact .inl ⟨_, _, rfl, h⟩
  | task h => exact .inr (execTask_withTaskOf h)
  | answer st v h => subst h; exact .inr rfl
  | rxRow c x h => exact .inr (rxAct_withTaskOf h)
  | txRow c h => exact .inr (txAct_withTaskOf h)

end Frames

/-- Settles O55: SEND changes the transmit side alone, and every other instruction stays inside the
frame of a TASK, which keeps the configuration. -/
theorem configurationFixedWhileLive : Obligations.ConfigurationFixedWhileLive := by
  intro i s t h hinit htd
  obtain ⟨linkId, p, -, hs⟩ | hf := (exec_cases h hinit htd).send_or_withTaskOf
  · rw [execSend_frame hs]
    exact ⟨rfl, rfl, rfl, rfl, rfl, rfl⟩
  · rw [hf]
    exact ⟨rfl, rfl, rfl, rfl, rfl, rfl⟩

/-- Settles O56: SEND only replies while a frame is pending, and every other instruction stays
inside the frame of a TASK, which keeps TXBUF. -/
theorem pendingFrameStaysInTxbuf : Obligations.PendingFrameStaysInTxbuf := by
  intro i s t h hinit htd
  obtain ⟨linkId, p, rfl, hs⟩ | hf := (exec_cases h hinit htd).send_or_withTaskOf
  · refine ⟨fun hp a => ?_, fun hsend => absurd rfl (hsend linkId p)⟩
    obtain ⟨st, rfl⟩ := execSend_pending hp hs
    rfl
  · rw [hf]
    exact ⟨fun _ _ => rfl, fun _ _ => rfl⟩

/-! ## Where DEC_BYTE stores -/

/-- The classes of a byte that is stored, or whose literal is (R150). -/
def StoresByte (c : RxClass) : Prop := c = .data ∨ c = .substDelim ∨ c = .substEsc

/-- R56: at most N + 2 bytes are received. -/
def RxWithin (s : State) : Prop := s.rxSize.toNat ≤ s.cfgN.toNat + 2

section Stores
variable {s t : State}

/-- A class that stores writes RXBUF[RX_SIZE] and counts it; another leaves RXBUF, and RX_SIZE or 0
in its place (R150). -/
theorem rxAct_stores {c : RxClass} {x : Byte} (h : rxAct c x s = .next t) :
    (StoresByte c ∧ t.rxSize = s.rxSize + 1 ∧ ∃ b, t.rxBuf = s.rxBuf.write s.rxSize.toNat b)
      ∨ (¬ StoresByte c ∧ t.rxBuf = s.rxBuf ∧ (t.rxSize = 0 ∨ t.rxSize = s.rxSize)) := by
  cases c with
  | start | overflow | full | badEscape =>
    cases h
    exact .inr ⟨by simp [StoresByte], rfl, .inl rfl⟩
  | ignore | escape =>
    cases h
    exact .inr ⟨by simp [StoresByte], rfl, .inr rfl⟩
  | frameEnd =>
    obtain ⟨u, hu, ht⟩ := andThen_eq_next.1 h
    cases ht
    refine .inr ⟨by simp [StoresByte], ?_, .inl rfl⟩
    obtain rfl | ⟨p, -, -, rfl⟩ := finalize_eq_next hu <;> rfl
  | data =>
    obtain ⟨-, rfl⟩ := rxStore_eq_next.1 h
    exact .inl ⟨by simp [StoresByte], rfl, _, rfl⟩
  | substDelim | substEsc =>
    obtain ⟨u, hu, ht⟩ := andThen_eq_next.1 h
    obtain ⟨-, rfl⟩ := rxStore_eq_next.1 hu
    cases ht
    exact .inl ⟨by simp [StoresByte], rfl, _, rfl⟩

/-- A byte is stored only below N + 2 (R56, R87). -/
theorem RxWithin.lt_of_stores (h : RxWithin s) {x : Byte} (hc : StoresByte (rxClassOf x s)) :
    s.rxSize.toNat < s.cfgN.toNat + 2 := by
  have hfull : rxFull s = false := (room_of_classify rfl hc).1
  have hne : s.rxSize.toNat ≠ s.cfgN.toNat + 2 := by simpa [rxFull] using hfull
  exact Nat.lt_of_le_of_ne h hne

/-- DEC_BYTE keeps N. -/
theorem decByte_cfgN {x : Byte} (h : decByte x s = .next t) : t.cfgN = s.cfgN := by
  rw [rxAct_frame h]

/-- DEC_BYTE keeps R56. -/
theorem RxWithin.afterDecByte (h : RxWithin s) {x : Byte} (ht : decByte x s = .next t) :
    RxWithin t := by
  unfold RxWithin
  rw [decByte_cfgN ht]
  obtain ⟨hc, hsize, -⟩ | ⟨-, -, hsize | hsize⟩ := rxAct_stores ht
  · have hlt := h.lt_of_stores hc
    rw [hsize]
    bv_omega
  · rw [hsize]
    exact Nat.zero_le _
  · rw [hsize]
    exact h

/-- The indices stored to are RX_SIZE, where the first byte is stored, and those of the rest. -/
theorem mem_storeIndices_cons {a : Nat} {x : Byte} {rest : List Byte} :
    a ∈ storeIndices (x :: rest) s
      ↔ (StoresByte (rxClassOf x s) ∧ a = s.rxSize.toNat)
        ∨ ∃ t, decByte x s = .next t ∧ a ∈ storeIndices rest t := by
  rw [storeIndices, List.mem_append]
  refine or_congr ?_ ?_
  · cases rxClassOf x s <;> simp [StoresByte]
  · cases decByte x s <;> simp

/-- A run of DEC_BYTEs leaves every byte of RXBUF it does not store to. -/
theorem decBytes_read {bs : List Byte} {a : Nat} (h : decBytes bs s = .next t)
    (ha : a ∉ storeIndices bs s) : t.rxBuf.read a = s.rxBuf.read a := by
  induction bs generalizing s with
  | nil => cases h; rfl
  | cons x rest ih =>
    obtain ⟨u, hu, ht⟩ := andThen_eq_next.1 h
    obtain ⟨hfirst, hrest⟩ := not_or.1 (mt mem_storeIndices_cons.2 ha)
    rw [ih ht fun hm => hrest ⟨u, hu, hm⟩]
    obtain ⟨hc, -, b, hb⟩ | ⟨-, hb, -⟩ := rxAct_stores hu
    · rw [hb, Memory.read_write_other _ _ fun he => hfirst ⟨hc, he⟩]
    · rw [hb]

/-- A run of DEC_BYTEs stores below N + 2 (R56). -/
theorem RxWithin.storeIndices_lt (h : RxWithin s) {bs : List Byte} {a : Nat}
    (ha : a ∈ storeIndices bs s) : a < s.cfgN.toNat + 2 := by
  induction bs generalizing s with
  | nil => cases ha
  | cons x rest ih =>
    obtain ⟨hc, rfl⟩ | ⟨t, ht, hm⟩ := mem_storeIndices_cons.1 ha
    · exact h.lt_of_stores hc
    · rw [← decByte_cfgN ht]
      exact ih (h.afterDecByte ht) hm

/-- What a TASK stores to is what its DEC_BYTEs store to (R190). -/
theorem mem_taskStores {a : Nat} :
    a ∈ taskStores s
      ↔ s.live = true ∧ ∃ s1, txSubStep s = .next s1 ∧ (rxReady s1).1 = true
          ∧ ∃ r, rxRecv (rxReady s1).2 = .next r ∧ a ∈ storeIndices (decodedBytes r.2 r.1) r.2 := by
  unfold taskStores
  cases s.live with
  | false => simp
  | true =>
    cases txSubStep s with
    | fault r | refused r => simp
    | next s1 =>
      cases hq : (rxReady s1).1 with
      | false => simp [hq]
      | true => cases hr : rxRecv (rxReady s1).2 <;> simp [hq, hr, -Prod.exists]

end Stores

/-- Settles O40: the frames of the two sub-steps, and a run of DEC_BYTEs stores nowhere else. -/
theorem taskFrame : Obligations.TaskFrame := by
  intro s t h
  refine ⟨execTask_withTaskOf h, fun a ha => ?_⟩
  obtain ⟨-, rfl⟩ | ⟨hl, s1, s2, h1, h2, rfl⟩ := execTask_eq_next h
  · rfl
  · have htx : s1.rxBuf = s.rxBuf := by rw [(txSubStep_frame h1).1]
    rw [reply_rxBuf, ← htx]
    obtain rfl | ⟨hq, r, hr, hdec⟩ := rxSubStep_eq_next h2
    · rw [rxReady_rxBuf]
    · have hrx : r.2.rxBuf = s1.rxBuf := by rw [rxRecv_rxReady hr]
      rw [← hrx]
      exact decBytes_read hdec fun hm => ha (mem_taskStores.2 ⟨hl, s1, h1, hq, r, hr, hm⟩)

/-- Settles O41: R56 holds where the DEC_BYTEs of a TASK begin, and they store below N + 2. -/
theorem taskStoresBelowCapacity : Obligations.TaskStoresBelowCapacity := by
  intro s a h ha
  obtain ⟨-, s1, h1, -, r, hr, hm⟩ := mem_taskStores.1 ha
  have hstart : r.2.cfgN = s.cfgN ∧ r.2.rxSize = s.rxSize := by
    rw [rxRecv_rxReady hr, (txSubStep_frame h1).1]
    exact ⟨rfl, rfl⟩
  obtain ⟨hn, hsize⟩ := hstart
  have hwithin : RxWithin r.2 := by
    unfold RxWithin
    rw [hn, hsize]
    exact h.rxSizeLe
  exact hn ▸ hwithin.storeIndices_lt hm

/-! ## Deliveries -/

/-- From `s` to `t` exactly the payloads `ds` are delivered, each is counted in STAT_RX_FRAMES, and
where R56 holds of `s` each has a legal length. -/
structure Delivers (s t : State) (ds : List (List Byte)) : Prop where
  recorded : deliveries t.events = deliveries s.events ++ ds
  counted : t.statRxFrames = s.statRxFrames + BitVec.ofNat 32 ds.length
  legal : RxWithin s → ∀ p ∈ ds, 1 ≤ p.length ∧ p.length ≤ s.cfgN.toNat

section Delivers
variable {s t u : State} {ds ds' : List (List Byte)}

/-- Nothing is delivered where the record and the counter stand still. -/
theorem Delivers.nothing (he : deliveries t.events = deliveries s.events)
    (hc : t.statRxFrames = s.statRxFrames) : Delivers s t [] :=
  ⟨by simp [he], by simp [hc], fun _ => nofun⟩

/-- Two parts deliver what the first delivers and then what the second does. -/
theorem Delivers.trans (h : Delivers s t ds) (h' : Delivers t u ds') (hn : t.cfgN = s.cfgN)
    (hw : RxWithin s → RxWithin t) : Delivers s u (ds ++ ds') where
  recorded := by rw [h'.recorded, h.recorded, List.append_assoc]
  counted := by
    rw [h'.counted, h.counted, List.length_append, BitVec.ofNat_add, BitVec.add_assoc]
  legal hs p hp := by
    obtain hp | hp := List.mem_append.1 hp
    · exact h.legal hs p hp
    · exact hn ▸ h'.legal (hw hs) p hp

/-- FINALIZE delivers nothing, or one payload two bytes shorter than the frame (R151, R161). -/
theorem finalize_delivers (h : finalize s = .next t) : ∃ ds, Delivers s t ds := by
  obtain rfl | ⟨p, hsize, hlen, rfl⟩ := finalize_eq_next h
  · exact ⟨[], .nothing rfl rfl⟩
  · refine ⟨[p], by simp [deliveries], rfl, fun (hw : s.rxSize.toNat ≤ s.cfgN.toNat + 2) q hq => ?_⟩
    obtain rfl := List.mem_singleton.1 hq
    omega

/-- Of the byte classes only END delivers, through FINALIZE. -/
theorem rxAct_delivers {c : RxClass} {x : Byte} (h : rxAct c x s = .next t) :
    ∃ ds, Delivers s t ds := by
  cases c with
  | start | ignore | escape | overflow | full | badEscape => cases h; exact ⟨[], .nothing rfl rfl⟩
  | frameEnd =>
    obtain ⟨v, hv, ht⟩ := andThen_eq_next.1 h
    cases ht
    obtain ⟨ds, hds⟩ := finalize_delivers hv
    exact ⟨ds, hds.recorded, hds.counted, hds.legal⟩
  | data =>
    obtain ⟨-, rfl⟩ := rxStore_eq_next.1 h
    exact ⟨[], .nothing rfl rfl⟩
  | substDelim | substEsc =>
    obtain ⟨v, hv, ht⟩ := andThen_eq_next.1 h
    obtain ⟨-, rfl⟩ := rxStore_eq_next.1 hv
    cases ht
    exact ⟨[], .nothing rfl rfl⟩

theorem decBytes_delivers {bs : List Byte} (h : decBytes bs s = .next t) :
    ∃ ds, Delivers s t ds := by
  induction bs generalizing s with
  | nil => cases h; exact ⟨[], .nothing rfl rfl⟩
  | cons x rest ih =>
    obtain ⟨v, hv, ht⟩ := andThen_eq_next.1 h
    obtain ⟨ds, hds⟩ := rxAct_delivers hv
    obtain ⟨ds', hds'⟩ := ih ht
    exact ⟨ds ++ ds', hds.trans hds' (decByte_cfgN hv) fun hw => hw.afterDecByte hv⟩

/-- Calls of `tx_send` are no deliveries. -/
@[simp] theorem deliveries_map_txSend (us : List LinkUnit) : deliveries (us.map .txSend) = [] := by
  induction us with
  | nil => rfl
  | cons v rest ih => exact ih

/-- The transmit sub-step delivers nothing. -/
theorem txSubStep_delivers (h : txSubStep s = .next t) : Delivers s t [] := by
  refine .nothing ?_ (by rw [(txSubStep_frame h).1])
  unfold txSubStep at h
  dsimp only at h
  split at h
  · obtain ⟨v, hv, ht⟩ := andThen_eq_next.1 h
    obtain ⟨us, -, -, hframe⟩ := encSteps_frame hv
    cases ht
    rw [hframe]
    simp [deliveries]
  · cases h
    simp [deliveries]

/-- The receive sub-step delivers what its DEC_BYTEs deliver. -/
theorem rxSubStep_delivers (h : rxSubStep s = .next t) : ∃ ds, Delivers s t ds := by
  obtain rfl | ⟨-, r, hr, hdec⟩ := rxSubStep_eq_next h
  · exact ⟨[], .nothing (by simp [deliveries]) (rxReady_statRxFrames s)⟩
  · obtain ⟨ds, hds⟩ := decBytes_delivers hdec
    have hcalls : Delivers s r.2 [] := by
      rw [rxRecv_rxReady hr]
      exact .nothing (by simp [deliveries]) rfl
    refine ⟨ds, hcalls.trans hds ?_ fun hw => ?_⟩
    · rw [rxRecv_rxReady hr]
    · rw [rxRecv_rxReady hr]
      exact hw

/-- A reply delivers nothing. -/
theorem delivers_reply (s : State) (st : Status) (v : Nat) : Delivers s (s.reply st v) [] :=
  .nothing rfl rfl

/-- TASK delivers what its receive sub-step delivers. -/
theorem execTask_delivers (h : execTask s = .next t) : ∃ ds, Delivers s t ds := by
  obtain ⟨-, rfl⟩ | ⟨-, s1, s2, h1, h2, rfl⟩ := execTask_eq_next h
  · exact ⟨[], delivers_reply ..⟩
  · obtain ⟨ds, hds⟩ := rxSubStep_delivers h2
    refine ⟨ds, (txSubStep_delivers h1).trans ⟨hds.recorded, hds.counted, hds.legal⟩ ?_ fun hw => ?_⟩
    · rw [(txSubStep_frame h1).1]
    · rw [(txSubStep_frame h1).1]
      exact hw

/-- What every instruction but INIT and TEARDOWN delivers is counted and legal. -/
theorem ExecCase.delivers {i : Instr} (h : ExecCase s t i) : ∃ ds, Delivers s t ds := by
  cases h with
  | send h =>
    rw [execSend_frame h]
    exact ⟨[], .nothing rfl rfl⟩
  | task h => exact execTask_delivers h
  | answer st v h => subst h; exact ⟨[], delivers_reply ..⟩
  | rxRow c x h => exact rxAct_delivers h
  | txRow c h =>
    obtain ⟨y, hy⟩ := txAct_frame h
    rw [hy]
    exact ⟨[], .nothing rfl rfl⟩

/-- INIT makes no call on the ports. -/
theorem execInit_events {n : Size} {kind : LinkKind} {chunk : Size} {rxLink : LinkId}
    (h : execInit n kind chunk rxLink s = .next t) : t.events = s.events := by
  unfold execInit at h
  split at h <;> cases h <;> rfl

/-- Every instruction delivers payloads of legal lengths, where R56 holds. -/
theorem RxWithin.exec_delivers (hw : RxWithin s) {i : Instr} (h : exec i s = .next t) :
    ∃ ds, deliveries t.events = deliveries s.events ++ ds
      ∧ ∀ p ∈ ds, 1 ≤ p.length ∧ p.length ≤ s.cfgN.toNat := by
  by_cases hcontrol : (∃ n kind chunk rxLink, i = .init n kind chunk rxLink) ∨ i = .teardown
  · have hev : t.events = s.events := by
      obtain ⟨n, kind, chunk, rxLink, rfl⟩ | rfl := hcontrol
      · exact execInit_events h
      · cases h; rfl
    exact ⟨[], by simp [hev], nofun⟩
  · obtain ⟨hinit, htd⟩ := not_or.1 hcontrol
    obtain ⟨ds, hds⟩ :=
      (exec_cases h (fun n kind chunk rxLink he => hinit ⟨n, kind, chunk, rxLink, he⟩) htd).delivers
    exact ⟨ds, hds.recorded, hds.legal hw⟩

end Delivers

/-- Settles O57: FINALIZE counts each payload it delivers, and nothing else touches the counter or
the record of deliveries. -/
theorem deliveriesCounted : Obligations.DeliveriesCounted := by
  intro i s t h hinit htd
  obtain ⟨ds, hds⟩ := (exec_cases h hinit htd).delivers
  exact ⟨ds, hds.recorded, hds.counted⟩

/-- Settles O58: FINALIZE delivers two bytes less than RX_SIZE, which R56 bounds by N + 2. -/
theorem deliveredLengthWithinLimits : Obligations.DeliveredLengthWithinLimits := by
  intro s t h ht
  obtain rfl | ⟨c, rest, -, ht⟩ := step_eq_next ht
  · exact ⟨[], by simp, nofun⟩
  · have hw : RxWithin { s with hostPort := rest } := h.rxSizeLe
    exact hw.exec_delivers ht

/-! ## A TASK with nothing to do, and a TASK that is refused -/

/-- Without an answer true and a frame pending, the transmit sub-step is its query (R191, R197). -/
theorem txSubStep_of_idle {s : State} {a : Bool} {txs : List Bool} (htx : s.txReadyIn = a :: txs)
    (hidle : a = false ∨ s.txSize = 0) :
    txSubStep s = .next { s with txReadyIn := txs, events := s.events ++ [.txReady a] } := by
  simp only [txSubStep, txReady_cons htx]
  rw [if_neg]
  rintro ⟨hready, hpending⟩
  obtain hno | hempty := hidle
  · exact Bool.noConfusion (hno.symm.trans hready)
  · exact hpending hempty

/-- Where the listed answer is that there is no unit, the receive sub-step is its query (R197). -/
theorem rxSubStep_of_no_unit {s : State} {rxs : List Bool} (hrx : s.rxReadyIn = false :: rxs) :
    rxSubStep s = .next { s with rxReadyIn := rxs, events := s.events ++ [.rxReady false] } := by
  rw [rxSubStep_of_not_ready (by rw [rxReady_cons hrx]), rxReady_cons hrx]

/-- Settles O48: both sub-steps are their queries. -/
theorem taskWithoutWorkHoldsState : Obligations.TaskWithoutWorkHoldsState := by
  intro s a txs rxs hl htx hrx hidle
  refine (execTask_live hl).2 ⟨_, _, txSubStep_of_idle htx hidle, rxSubStep_of_no_unit hrx, ?_⟩
  simp [State.reply]

/-- `rx_recv` refuses a listed unit that breaks the contract (R252). -/
theorem rxRecv_of_outside_contract {s : State} {u : LinkUnit} {rest : List LinkUnit}
    (h : s.rxIn = u :: rest) (hc : unitInContract s u = false) :
    rxRecv s = .refused (.unitOutsideContract u) := by
  simp [rxRecv, h, hc]

/-- The receive sub-step refuses such a unit. -/
theorem rxSubStep_of_outside_contract {s : State} {u : LinkUnit} {rxs : List Bool}
    {units : List LinkUnit} (hrx : s.rxReadyIn = true :: rxs) (hin : s.rxIn = u :: units)
    (hc : unitInContract s u = false) : rxSubStep s = .refused (.unitOutsideContract u) := by
  rw [rxSubStep_of_ready (by rw [rxReady_cons hrx]), rxReady_cons hrx]
  simp only [rxRecv_of_outside_contract (s := { s with
    rxReadyIn := rxs, events := s.events ++ [.rxReady true] }) hin hc, andThen_refused]

/-- Too many bytes, too wide an identifier and the other link variant each break the contract. -/
theorem unitInContract_eq_false {s : State} {u : LinkUnit}
    (h : (∃ id bs, u = .message id bs ∧
          (s.cfgKind = .stream ∨ s.cfgChunk.toNat < bs.length ∨ 2 ^ s.build.linkIdW ≤ id))
      ∨ ∃ b, u = .byte b ∧ s.cfgKind = .message) : unitInContract s u = false := by
  obtain ⟨id, bs, rfl, hk | hlen | hid⟩ | ⟨b, rfl, hk⟩ := h
  · simp [unitInContract, hk]
  · simp [unitInContract, hlen]
  · have hfit : fitsWidth s.build.linkIdW id = false := by
      rw [← Bool.not_eq_true, fitsWidth_iff]
      exact Nat.not_lt.2 hid
    simp [unitInContract, hfit]
  · simp [unitInContract, hk]

/-- Settles O50: the transmit sub-step is its query, and `rx_recv` refuses the unit. -/
theorem unitOutsideContractRefused : Obligations.UnitOutsideContractRefused := by
  intro s u txs rxs units hl hu htx hrx hin
  have h1 := txSubStep_of_idle htx (.inl rfl)
  have h2 := rxSubStep_of_outside_contract (s := { s with
    txReadyIn := txs, events := s.events ++ [.txReady false] }) hrx hin (unitInContract_eq_false hu)
  change execTask s = _
  rw [execTask, if_neg (by simp [hl]), h1, andThen_next, h2, andThen_refused]

end Sys2Proof.Machine
end

section
/-! PROOFS. Scope: memory (spec/20). How the CRC is stored (O14), the calls of a TASK and their
order (O49), and that instances share nothing (O59). -/

namespace Sys2Proof.Machine

open Sys2Proof

/-! ## The two bytes of a CRC -/

/-- Reading the two bytes of a word back gives the word (R112). -/
theorem fromLowHigh_of_halves (v : Crc) :
    fromLowHigh (v.setWidth 8) ((v >>> 8).setWidth 8) = v := by
  refine BitVec.eq_of_getLsbD_eq fun i hi => ?_
  by_cases hlow : i < 8
  · simp [fromLowHigh, hlow, hi]
  · have hhigh : i - 8 < 8 := by omega
    simp [fromLowHigh, hlow, hi, hhigh, show 8 + (i - 8) = i by omega]

/-- The low byte is the word modulo 256. -/
theorem toNat_lowByte (v : Crc) : (v.setWidth 8).toNat = v.toNat % 256 :=
  BitVec.toNat_setWidth 8 v

/-- The high byte is the word divided by 256: a quotient of a 16-bit word fits a byte. -/
theorem toNat_highByte (v : Crc) : ((v >>> 8).setWidth 8).toNat = v.toNat / 256 := by
  have hfit : v.toNat / 256 < 256 := by have := v.isLt; omega
  rw [BitVec.toNat_setWidth, BitVec.toNat_ushiftRight, Nat.shiftRight_eq_div_pow]
  exact Nat.mod_eq_of_lt hfit

/-- Settles O14: the bytes are the halves of the CRC, and the halves of a word read back as it. -/
theorem crcStoredLowByteFirst : Obligations.CrcStoredLowByteFirst := fun d =>
  ⟨_, _, rfl, toNat_lowByte (crc16 d), toNat_highByte (crc16 d), fromLowHigh_of_halves (crc16 d)⟩

/-! ## The calls of a TASK -/

section Calls
variable {s t : State}

/-- A transmit sub-step that answers produces a unit where the link is ready and a frame is pending,
and is its query elsewhere (R191, R197). -/
theorem txSubStep_eq_next (h : txSubStep s = .next t) :
    (((txReady s).1 = true ∧ s.txSize ≠ 0) ∧ transmit (txReady s).2 = .next t)
      ∨ ¬((txReady s).1 = true ∧ s.txSize ≠ 0) ∧ t = (txReady s).2 := by
  unfold txSubStep at h
  simp only [txReady_txSize] at h
  split at h
  · rename_i hsend
    exact .inl ⟨hsend, h⟩
  · rename_i hidle
    cases h
    exact .inr ⟨hidle, rfl⟩

/-- Encoder output makes one unit: all of it on a MESSAGE link, its one byte on a STREAM link (R89,
R90). -/
theorem txUnits_eq_singleton {kind : LinkKind} (id : LinkId) {us : List Byte} (hne : us ≠ [])
    (hstream : kind = .stream → us.length ≤ 1) : ∃ u, txUnits kind id us = [u] := by
  cases kind with
  | message => exact ⟨_, rfl⟩
  | stream =>
    have hlen : us.length = 1 := Nat.le_antisymm (hstream rfl) (List.length_pos_iff.2 hne)
    obtain ⟨b, rfl⟩ := List.length_eq_one_iff.1 hlen
    exact ⟨.byte b, rfl⟩

/-- Transmitting calls `tx_send` once (R192, R193). -/
theorem transmit_events (h : transmit s = .next t) :
    ∃ u, t.events = s.events ++ [.txSend u] := by
  obtain ⟨v, hv, ht⟩ := andThen_eq_next.1 h
  obtain ⟨us, hne, hlen, hframe⟩ := encSteps_frame hv
  cases ht
  obtain ⟨u, hu⟩ := txUnits_eq_singleton s.txLinkId (kind := s.cfgKind) hne fun hk => by
    simpa [moreSteps, hk] using hlen
  refine ⟨u, ?_⟩
  rw [hframe]
  simp [txSend, hu]

/-- FINALIZE makes no call but a delivery. -/
theorem finalize_events (h : finalize s = .next t) :
    ∃ ds : List (List Byte), t.events = s.events ++ ds.map .deliver := by
  obtain rfl | ⟨p, -, -, rfl⟩ := finalize_eq_next h
  · exact ⟨[], by simp⟩
  · exact ⟨[p], rfl⟩

/-- A byte makes no call but a delivery, and that at a frame's end alone. -/
theorem rxAct_events {c : RxClass} {x : Byte} (h : rxAct c x s = .next t) :
    ∃ ds : List (List Byte), t.events = s.events ++ ds.map .deliver := by
  cases c with
  | start | ignore | escape | overflow | full | badEscape => cases h; exact ⟨[], by simp⟩
  | frameEnd =>
    obtain ⟨v, hv, ht⟩ := andThen_eq_next.1 h
    cases ht
    obtain ⟨ds, hds⟩ := finalize_events hv
    exact ⟨ds, hds⟩
  | data =>
    obtain ⟨-, rfl⟩ := rxStore_eq_next.1 h
    exact ⟨[], by simp⟩
  | substDelim | substEsc =>
    obtain ⟨v, hv, ht⟩ := andThen_eq_next.1 h
    obtain ⟨-, rfl⟩ := rxStore_eq_next.1 hv
    cases ht
    exact ⟨[], by simp⟩

/-- A run of DEC_BYTEs makes no calls but deliveries. -/
theorem decBytes_events {bs : List Byte} (h : decBytes bs s = .next t) :
    ∃ ds : List (List Byte), t.events = s.events ++ ds.map .deliver := by
  induction bs generalizing s with
  | nil => cases h; exact ⟨[], by simp⟩
  | cons x rest ih =>
    obtain ⟨v, hv, ht⟩ := andThen_eq_next.1 h
    obtain ⟨ds, hds⟩ := rxAct_events hv
    obtain ⟨ds', hds'⟩ := ih ht
    exact ⟨ds ++ ds', by rw [hds', hds, List.map_append, List.append_assoc]⟩

/-- The transmit sub-step queries `tx_ready`, then calls `tx_send` once exactly where the answer was
true with a frame pending (R190, R191). -/
theorem txSubStep_events (h : txSubStep s = .next t) :
    ∃ sent, t.events = s.events ++ [.txReady (txReady s).1] ++ sent
      ∧ (((txReady s).1 = true ∧ s.txSize ≠ 0) → ∃ u, sent = [.txSend u])
      ∧ (((txReady s).1 = false ∨ s.txSize = 0) → sent = []) := by
  obtain ⟨hsend, ht⟩ | ⟨hidle, rfl⟩ := txSubStep_eq_next h
  · obtain ⟨u, hu⟩ := transmit_events ht
    refine ⟨[.txSend u], by rw [hu, txReady_events], fun _ => ⟨u, rfl⟩, ?_⟩
    rintro (hno | hempty)
    · exact Bool.noConfusion (hno.symm.trans hsend.1)
    · exact absurd hempty hsend.2
  · exact ⟨[], by simp, fun hsend => absurd hsend hidle, fun _ => rfl⟩

/-- The receive sub-step queries `rx_ready`, then, exactly where the answer was true, calls
`rx_recv` once and delivers (R190, R197). -/
theorem rxSubStep_events (h : rxSubStep s = .next t) :
    ∃ recv, t.events = s.events ++ [.rxReady (rxReady s).1] ++ recv
      ∧ ((rxReady s).1 = false → recv = [])
      ∧ ((rxReady s).1 = true →
          ∃ (u : LinkUnit) (ds : List (List Byte)), recv = .rxRecv u :: ds.map .deliver) := by
  cases hq : (rxReady s).1 with
  | false =>
    rw [rxSubStep_of_not_ready hq] at h
    cases h
    exact ⟨[], by simp [hq], fun _ => rfl, nofun⟩
  | true =>
    rw [rxSubStep_of_ready hq] at h
    obtain ⟨r, hr, hdec⟩ := andThen_eq_next.1 h
    obtain ⟨ds, hds⟩ := decBytes_events hdec
    refine ⟨.rxRecv r.1 :: ds.map .deliver, ?_, nofun, fun _ => ⟨r.1, ds, rfl⟩⟩
    rw [hds, rxRecv_rxReady hr]
    simp [hq]

end Calls

/-- Settles O49: the calls of the transmit sub-step, then those of the receive sub-step (R196). -/
theorem taskEventOrder : Obligations.TaskEventOrder := by
  intro s t hl h
  obtain ⟨s1, s2, h1, h2, rfl⟩ := (execTask_live hl).1 h
  obtain ⟨sent, htx, hsent, hnone⟩ := txSubStep_events h1
  obtain ⟨recv, hrx, hquiet, hrecv⟩ := rxSubStep_events h2
  exact ⟨_, _, sent, recv, by rw [reply_events, hrx, htx], hsent, hnone, hquiet, hrecv⟩

/-! ## Several instances -/

section Instances
variable {sys sys' : List State} {i j : Nat}

/-- A step that answers finds no entry of that number and changes nothing, or replaces the entry by
the state it steps to. -/
theorem stepInstance_eq_next :
    stepInstance i sys = .next sys'
      ↔ (sys[i]? = none ∧ sys' = sys)
        ∨ ∃ s t, sys[i]? = some s ∧ step s = .next t ∧ sys' = sys.set i t := by
  unfold stepInstance
  cases sys[i]? with
  | none => simp [eq_comm]
  | some s => simp [andThen_eq_next, eq_comm (a := sys')]

/-- A step of one entry leaves every other one (R71). -/
theorem stepInstance_getElem?_ne (h : stepInstance i sys = .next sys') (hne : j ≠ i) :
    sys'[j]? = sys[j]? := by
  obtain ⟨-, rfl⟩ | ⟨s, t, -, -, rfl⟩ := stepInstance_eq_next.1 h
  · rfl
  · exact List.getElem?_set_ne hne.symm

end Instances

/-- Settles O59: each step finds its instance as it was before the other, and the two replace
different entries of the list. -/
theorem instancesShareNothing : Obligations.InstancesShareNothing := by
  intro sys a b i j hne hi hj
  have hai : a[j]? = sys[j]? := stepInstance_getElem?_ne hi hne.symm
  have hbj : b[i]? = sys[i]? := stepInstance_getElem?_ne hj hne
  refine ⟨?_, fun k hk => stepInstance_getElem?_ne hi hk⟩
  obtain ⟨hnone, rfl⟩ | ⟨s, s', hs, hstep, rfl⟩ := stepInstance_eq_next.1 hi
  · exact ⟨b, hj, stepInstance_eq_next.2 (.inl ⟨hbj.trans hnone, rfl⟩)⟩
  · obtain ⟨hnone, rfl⟩ | ⟨u, u', hu, hstep', rfl⟩ := stepInstance_eq_next.1 hj
    · exact ⟨_, stepInstance_eq_next.2 (.inl ⟨hai.trans hnone, rfl⟩), hi⟩
    · exact ⟨(sys.set i s').set j u',
        stepInstance_eq_next.2 (.inr ⟨u, u', hai.trans hu, hstep', rfl⟩),
        stepInstance_eq_next.2 (.inr ⟨s, s', hbj.trans hs, hstep, List.set_comm _ _ hne⟩)⟩

end Sys2Proof.Machine
end

section
/-! PROOFS. Scope: encoding (spec/30). That decoding and encoding are inverse (O1, O2, O3); the wire
format (O27, O28); that every command completes and answers once (O10, O11); the byte classes of
DEC_BYTE (O29); and how many TASKs a frame takes (O52, O53), for which `TxPhase` says what the
encoder has still to return of a frame. -/

namespace Sys2Proof.Machine

open Sys2Proof

/-! ## Commands and their encodings -/

/-- An opcode that is not assigned is a reserved one (R95, R98). -/
theorem instr_of_not_assigned {c : Command} (h : assignedOpcode c.op = false) :
    c.instr = .illegalCmd c.op := by
  have hop : ∀ op : Byte, assignedOpcode op = true → c.op ≠ op := fun op ha he =>
    Bool.noConfusion (ha.symm.trans (he ▸ h))
  rw [Command.instr]
  repeat rw [if_neg (hop _ (by decide))]

/-- A command that reads as a well-formed instruction decodes to it. -/
theorem decode_command {w : Nat} {c : Command} {i : Instr} (hc : c.instr = i)
    (hw : i.wellFormed w = true) : (Encoding.command c).decode w = .ok i :=
  decode_eq_ok.2 ⟨hc, hw⟩

/-- A received byte decodes to the row of its class (R87). -/
theorem decode_received {w : Nat} {st : Framing} {full : Bool} {x : Byte} {c : RxClass}
    (h : classify st full x = c) : (Encoding.received st full x).decode w = .ok (.ofRx x c) := by
  rw [Encoding.decode, h]

/-- An ENC_STEP decodes to the row of its case (R130). -/
theorem decode_encStep {w : Nat} {st : Framing} {atEnd : Bool} {b : Byte} {c : TxCase}
    (h : txCaseOf st atEnd b = c) : (Encoding.encStep st atEnd b).decode w = .ok (.ofTx c) := by
  rw [Encoding.decode, h]

/-- A byte that is not reserved is none of the two (R81). -/
theorem not_reserved_iff {b : Byte} : reserved b = false ↔ b ≠ delim ∧ b ≠ esc := by
  simp [reserved]

/-- Inside a frame a byte that is not reserved is data, or too much (R87). -/
theorem classify_inFrame {x : Byte} (full : Bool) (h : reserved x = false) :
    classify .inFrame full x = if full then .overflow else .data := by
  obtain ⟨hdelim, hesc⟩ := not_reserved_iff.1 h
  rw [classify, if_neg hesc, if_neg hdelim]

/-- Settles O1: a command reads as the row of its opcode, and each codec row is the class or the
case of the situation that encodes it. -/
theorem encodedInstructionDecodes : Obligations.EncodedInstructionDecodes := by
  intro w i h
  cases i with
  | init n kind chunk rxLink => exact decode_command (by simp [Command.instr]) h
  | teardown | send | task | crc16 | readReg => exact decode_command rfl h
  | illegalCmd op =>
    have hop : assignedOpcode op = false := by simpa [Instr.wellFormed, Instr.reject] using h
    exact decode_command (instr_of_not_assigned hop) h
  | rxStart | rxEscape | rxEnd | rxSubDelim | rxSubEsc => exact decode_received rfl
  | rxIgnore x =>
    have hx : x ≠ delim := by simpa [Instr.wellFormed, Instr.reject] using h
    exact decode_received (c := .ignore) (if_neg hx)
  | rxOverflow x =>
    have hx : reserved x = false := by simpa [Instr.wellFormed, Instr.reject] using h
    exact decode_received (c := .overflow) (classify_inFrame true hx)
  | rxData x =>
    have hx : reserved x = false := by simpa [Instr.wellFormed, Instr.reject] using h
    exact decode_received (c := .data) (classify_inFrame false hx)
  | rxFull x =>
    have hx : x = subDelim ∨ x = subEsc := by
      simpa [Instr.wellFormed, Instr.reject, imp_iff_not_or] using h
    obtain rfl | rfl := hx <;> exact decode_received (c := .full) rfl
  | rxBadEscape x =>
    have hx : ¬(x = subDelim ∨ x = subEsc) := by
      simpa [Instr.wellFormed, Instr.reject] using h
    obtain ⟨hd, he⟩ := not_or.1 hx
    exact decode_received (c := .badEscape) ((if_neg hd).trans (if_neg he))
  | txClose | txOpen | txEscape | txLiteral | txSubstitute => exact decode_encStep rfl

/-- What a command reads as encodes to its own opcode and operand fields (R94, R96). -/
theorem encode_instr (c : Command) : encode c.instr = .command c.present := by
  unfold Command.instr Command.present
  -- One branch for each opcode; in the others the opcode would be two at once.
  split_ifs <;> simp_all [encode]

/-- Settles O2: a command decodes to what it reads as. -/
theorem decodedCommandEncodesToItsFields : Obligations.DecodedCommandEncodesToItsFields := by
  intro w c i h
  obtain ⟨rfl, -⟩ := decode_eq_ok.1 h
  exact encode_instr c

/-- Settles O3: each word is read in the tables. -/
theorem tableWordsDecode : Obligations.TableWordsDecode := by
  unfold Obligations.TableWordsDecode
  decide

/-! ## The wire format -/

@[simp] theorem stuff_cons_of_reserved {b : Byte} (rest : List Byte) (h : reserved b = true) :
    stuff (b :: rest) = esc :: substituteOf b :: stuff rest := by
  simp [stuff, stuffByte, h]

@[simp] theorem stuff_cons_of_not_reserved {b : Byte} (rest : List Byte)
    (h : reserved b = false) : stuff (b :: rest) = b :: stuff rest := by
  simp [stuff, stuffByte, h]

/-- Stuffing adds a byte for each reserved one (R85). -/
theorem length_stuff (d : List Byte) : (stuff d).length = d.length + d.countP reserved := by
  induction d with
  | nil => rfl
  | cons b rest ih =>
    cases hr : reserved b <;> simp [hr, ih] <;> omega

/-- Settles O27: a frame is two delimiters around the stuffed payload and CRC, of which every byte
may be reserved. -/
theorem frameLength : Obligations.FrameLength := by
  intro p
  have hlen : (frame p).length = p.length + escapes p + 4 := by
    simp [frame, length_stuff, escapes]
    omega
  have hesc : escapes p ≤ p.length + 2 := by
    rw [← length_withCrc]
    exact List.countP_le_length
  exact ⟨hlen, fun n hp hn => by omega⟩

/-- The substitute of a byte is one of the two (R81). -/
theorem substituteOf_cases (b : Byte) : substituteOf b = subDelim ∨ substituteOf b = subEsc := by
  unfold substituteOf
  split
  · exact .inl rfl
  · exact .inr rfl

/-- A substitute is not reserved. -/
theorem reserved_substituteOf (b : Byte) : reserved (substituteOf b) = false := by
  obtain h | h := substituteOf_cases b <;> rw [h] <;> rfl

/-- Unstuffing takes the stuffing of one byte off (R83). -/
theorem unstuff_stuffByte (b : Byte) (rest : List Byte) :
    unstuff (stuffByte b ++ rest) = (unstuff rest).map (b :: ·) := by
  cases hr : reserved b with
  | true => obtain rfl | rfl := reserved_iff.1 hr <;> rfl
  | false =>
    obtain ⟨hdelim, hesc⟩ := not_reserved_iff.1 hr
    rw [stuffByte, hr, if_neg Bool.false_ne_true, List.singleton_append, unstuff.eq_def]
    simp only [if_neg hdelim, if_neg hesc]

/-- Unstuffing inverts stuffing (R83). -/
theorem unstuff_stuff (d : List Byte) : unstuff (stuff d) = some d := by
  induction d with
  | nil => rfl
  | cons b rest ih => rw [stuff, unstuff_stuffByte, ih, Option.map_some]

/-- No delimiter stands in a stuffed body. -/
theorem delim_not_mem_stuff (d : List Byte) : delim ∉ stuff d := by
  induction d with
  | nil => nofun
  | cons b rest ih =>
    cases hr : reserved b with
    | true =>
      have hsub := (not_reserved_iff.1 (reserved_substituteOf b)).1
      have hesc : delim ≠ esc := by decide
      simp [hr, ih, hsub.symm, hesc]
    | false =>
      have hb := (not_reserved_iff.1 hr).1
      simp [hr, ih, hb.symm]

/-- A substitute stands after every escape of a stuffed body. -/
theorem substitute_after_esc {d : List Byte} {i : Nat} (h : (stuff d)[i]? = some esc) :
    (stuff d)[i + 1]? = some subDelim ∨ (stuff d)[i + 1]? = some subEsc := by
  induction d generalizing i with
  | nil => cases h
  | cons b rest ih =>
    cases hr : reserved b with
    | true =>
      rw [stuff_cons_of_reserved rest hr] at h ⊢
      match i with
      | 0 => simpa using substituteOf_cases b
      | 1 => exact absurd (Option.some.inj h) (not_reserved_iff.1 (reserved_substituteOf b)).2
      | j + 2 => exact ih h
    | false =>
      rw [stuff_cons_of_not_reserved rest hr] at h ⊢
      match i with
      | 0 => exact absurd (Option.some.inj h) (not_reserved_iff.1 hr).2
      | j + 1 => exact ih h

/-- Settles O28: each part by induction on the bytes stuffed. -/
theorem unstuffInvertsStuff : Obligations.UnstuffInvertsStuff := fun d =>
  ⟨unstuff_stuff d, delim_not_mem_stuff d, fun _ => substitute_after_esc⟩

/-! ## Every command completes -/

section Completes
variable {s t : State}

/-- `rx_recv` gives a unit, where the listed one keeps the contract (R252). -/
theorem rxRecv_next (hu : NextUnitInContract s) : ∃ r, rxRecv s = .next r := by
  cases hin : s.rxIn with
  | nil => exact ⟨_, by rw [rxRecv, hin]⟩
  | cons u rest => exact ⟨_, rxRecv_cons hin (hu u (by rw [hin]; rfl))⟩

/-- The contract of the next unit rests on the units to come, the build and the configuration. -/
theorem NextUnitInContract.of_eq (hu : NextUnitInContract s) (hin : t.rxIn = s.rxIn)
    (hb : t.build = s.build) (hk : t.cfgKind = s.cfgKind) (hc : t.cfgChunk = s.cfgChunk) :
    NextUnitInContract t := by
  intro u h
  have hok := hu u (by rwa [hin] at h)
  cases u <;> simpa only [unitInContract, hb, hk, hc] using hok

/-- The receive sub-step answers, where the next unit keeps the contract. -/
theorem TaskInv.rxSubStep_next (h : TaskInv s) (hu : NextUnitInContract s) :
    ∃ t, rxSubStep s = .next t := by
  cases hq : (rxReady s).1 with
  | false => exact ⟨_, rxSubStep_of_not_ready hq⟩
  | true =>
    have hu' : NextUnitInContract (rxReady s).2 := hu.of_eq (by simp) (by simp) (by simp) (by simp)
    obtain ⟨r, hr⟩ := rxRecv_next hu'
    obtain ⟨t, ht, -⟩ := (h.afterRxReady.afterRxRecv hr).decBytes_next (decodedBytes r.2 r.1)
    exact ⟨t, by rw [rxSubStep_of_ready hq, hr]; exact ht⟩

/-- TASK answers, where the next unit keeps the contract (R190, R252). -/
theorem execTask_next (h : Inv s) (hu : NextUnitInContract s) : ∃ t, execTask s = .next t := by
  cases hl : s.live with
  | false => exact ⟨_, by rw [execTask, if_pos hl]⟩
  | true =>
    obtain ⟨s1, h1, hinv⟩ := (h.taskInv hl).txSubStep_next
    have hframe := (txSubStep_frame h1).1
    have hu1 : NextUnitInContract s1 :=
      hu.of_eq (by rw [hframe]) (by rw [hframe]) (by rw [hframe]) (by rw [hframe])
    obtain ⟨s2, h2⟩ := hinv.rxSubStep_next hu1
    exact ⟨_, (execTask_live hl).2 ⟨s1, s2, h1, h2, rfl⟩⟩

/-- Every command answers (R240). -/
theorem exec_next (h : Inv s) (hu : NextUnitInContract s) {i : Instr} (hi : i.isCommand = true) :
    ∃ t, exec i s = .next t := by
  cases i with
  | init n kind chunk rxLink =>
    change ∃ t, execInit n kind chunk rxLink s = .next t
    unfold execInit
    split <;> exact ⟨_, rfl⟩
  | send linkId p => exact execSend_next h linkId p
  | task => exact execTask_next h hu
  | readReg reg =>
    change ∃ t, execReadReg reg s = .next t
    unfold execReadReg
    split <;> exact ⟨_, rfl⟩
  | teardown | crc16 data | illegalCmd op => exact ⟨_, rfl⟩
  | _ => cases hi

end Completes

/-- Settles O10: a step is idle, or the command decodes, as its operands fit, and answers. -/
theorem stepCompletes : Obligations.StepCompletes := by
  intro s h hfits hu
  cases hp : s.hostPort with
  | nil => exact ⟨s, step_of_no_command hp⟩
  | cons c rest =>
    have hfit : c.instr.reject s.build.linkIdW = none := hfits c (by rw [hp]; rfl)
    have hd : decode s.build.linkIdW c = .ok c.instr :=
      decode_eq_ok.2 ⟨rfl, by simp [Instr.wellFormed, hfit]⟩
    rw [step_of_decode_ok hp hd]
    exact exec_next (h.withHostPort rest) hu (instr_isCommand c)

/-! ## Every command answers once -/

section Answers
variable {s t : State}

/-- A TASK answers once, with the value 0 (R97, R190). -/
theorem execTask_replies (h : execTask s = .next t) :
    ∃ st, t.replies = s.replies ++ [{ status := st, value := 0 }] := by
  obtain ⟨-, rfl⟩ | ⟨-, s1, s2, h1, h2, rfl⟩ := execTask_eq_next h
  · exact ⟨.notLive, rfl⟩
  · refine ⟨.ok, ?_⟩
    rw [reply_replies, rxSubStep_frame h2, (txSubStep_frame h1).1]

/-- A SEND answers once, with the value 0 (R97, R180). -/
theorem execSend_replies {linkId : LinkId} {p : List Byte} (h : execSend linkId p s = .next t) :
    ∃ st, t.replies = s.replies ++ [{ status := st, value := 0 }] := by
  obtain ⟨st, rfl⟩ | ⟨-, u, hu, rfl⟩ := execSend_eq_next h
  · exact ⟨st, rfl⟩
  · obtain ⟨m, rfl, -⟩ := loadPayload_eq_next hu
    exact ⟨.ok, rfl⟩

/-- An INIT answers once, with the value 0 (R97, R220, R221). -/
theorem execInit_replies {n : Size} {kind : LinkKind} {chunk : Size} {rxLink : LinkId}
    (h : execInit n kind chunk rxLink s = .next t) :
    ∃ st, t.replies = s.replies ++ [{ status := st, value := 0 }] := by
  unfold execInit at h
  split at h <;> cases h
  · exact ⟨.ok, rfl⟩
  · exact ⟨.badConfig, rfl⟩

/-- A command but CRC16 and READ_REG answers once, with the value 0 (R97). -/
theorem exec_replies_zero {i : Instr} (hi : i.isCommand = true) (h : exec i s = .next t)
    (hcrc : ∀ data, i ≠ .crc16 data) (hreg : ∀ reg, i ≠ .readReg reg) :
    ∃ st, t.replies = s.replies ++ [{ status := st, value := 0 }] := by
  cases i with
  | init n kind chunk rxLink => exact execInit_replies h
  | teardown => cases h; exact ⟨.ok, rfl⟩
  | send linkId p => exact execSend_replies h
  | task => exact execTask_replies h
  | crc16 data => exact absurd rfl (hcrc data)
  | readReg reg => exact absurd rfl (hreg reg)
  | illegalCmd op => cases h; exact ⟨.illegalCmd, rfl⟩
  | _ => cases hi

/-- READ_REG answers once, with the register's value and OK, or 0 and another status (R97, R224). -/
theorem execReadReg_replies {reg : Byte} (h : execReadReg reg s = .next t) :
    ∃ r : Reply, t.replies = s.replies ++ [r]
      ∧ (r.status ≠ .ok → r.value = 0) ∧ (r.status = .ok → regValue s reg = some r.value) := by
  unfold execReadReg at h
  split at h
  · rename_i v hv
    cases h
    exact ⟨_, rfl, fun hne => absurd rfl hne, fun _ => hv⟩
  · cases h
    exact ⟨_, rfl, fun _ => rfl, nofun⟩

end Answers

/-- Settles O11: CRC16 and READ_REG answer their values, and every other command 0. -/
theorem everyCommandAnswersOnce : Obligations.EveryCommandAnswersOnce := by
  intro i s t hi h
  by_cases hcrc : ∃ data, i = .crc16 data
  · obtain ⟨data, rfl⟩ := hcrc
    cases h
    exact ⟨_, rfl, fun hne => absurd rfl hne, fun _ he => by cases he; rfl, nofun,
      fun hne => absurd rfl (hne data)⟩
  by_cases hreg : ∃ reg, i = .readReg reg
  · obtain ⟨reg, rfl⟩ := hreg
    obtain ⟨r, hr, hzero, hval⟩ := execReadReg_replies h
    exact ⟨r, hr, hzero, nofun, fun _ he => by cases he; exact hval,
      fun _ hne => absurd rfl (hne reg)⟩
  obtain ⟨st, hst⟩ := exec_replies_zero hi h (not_exists.1 hcrc) (not_exists.1 hreg)
  exact ⟨_, hst, fun _ => rfl, fun data he => absurd ⟨data, he⟩ hcrc,
    fun reg he => absurd ⟨reg, he⟩ hreg, fun _ _ => rfl⟩

/-! ## The byte classes of DEC_BYTE -/

section Classes
variable {s u : State} {x b : Byte} {c : RxClass} {st : Framing}

/-- DEC_BYTE, and the row of its byte's class by itself, do what the class does. -/
theorem decByte_and_row (hc : rxClassOf x s = c) (ht : rxAct c x s = .next u) :
    ∃ t, decByte x s = .next t ∧ runRxRow c x s = .next t ∧ t = u :=
  ⟨u, by rw [decByte, hc, ht], runRxRow_eq_next.2 ⟨hc, ht⟩, rfl⟩

/-- The same of a class that stores a byte: it stores it at RX_SIZE, and nowhere else (R150). -/
theorem decByte_and_row_store (hc : rxClassOf x s = c)
    (ht : rxAct c x s = .next { s with
      rxBuf := s.rxBuf.write s.rxSize.toNat b, rxSize := s.rxSize + 1, rxState := st }) :
    ∃ t, decByte x s = .next t ∧ runRxRow c x s = .next t
      ∧ t = { s with rxBuf := t.rxBuf, rxSize := s.rxSize + 1, rxState := st }
      ∧ t.rxBuf.read s.rxSize.toNat = some b
      ∧ ∀ a, a ≠ s.rxSize.toNat → t.rxBuf.read a = s.rxBuf.read a := by
  obtain ⟨t, hdec, hrow, rfl⟩ := decByte_and_row hc ht
  exact ⟨_, hdec, hrow, rfl, Memory.read_write_same .., fun a => Memory.read_write_other _ _⟩

/-- A literal is stored where RXBUF has a byte at RX_SIZE, and the frame goes on (R150). -/
theorem rxSubstituteAct_of_lt (h : s.rxSize.toNat < s.build.bufCap) :
    rxSubstituteAct b s = .next { s with
      rxBuf := s.rxBuf.write s.rxSize.toNat b, rxSize := s.rxSize + 1, rxState := .inFrame } :=
  andThen_eq_next.2 ⟨_, rxStore_eq_next.2 ⟨h, rfl⟩, rfl⟩

/-- Below N + 2 the decoder is not full (R153). -/
theorem rxFull_of_lt (h : s.rxSize.toNat < s.cfgN.toNat + 2) : rxFull s = false := by
  simp [rxFull, Nat.ne_of_lt h]

/-- At N + 2 it is (R153). -/
theorem rxFull_of_eq (h : s.rxSize.toNat = s.cfgN.toNat + 2) : rxFull s = true := by
  simp [rxFull, h]

theorem rxClassOf_inFrame (hst : s.rxState = .inFrame) (hesc : x ≠ esc) (hdelim : x ≠ delim) :
    rxClassOf x s = if rxFull s then .overflow else .data := by
  rw [rxClassOf, hst, classify_inFrame _ (not_reserved_iff.2 ⟨hdelim, hesc⟩)]

end Classes

/-- Settles O29: the class of the byte in each decoder state, and what the class does. -/
theorem decByteFollowsTable : Obligations.DecByteFollowsTable := by
  intro s x
  refine ⟨fun hst => ⟨?_, ?_⟩, fun hst => ⟨?_, ?_, ?_, ?_⟩, fun hst => ⟨?_, ?_, ?_, ?_⟩⟩
  · rintro rfl
    exact decByte_and_row (c := .start) (by rw [rxClassOf, hst]; rfl) rfl
  · intro hdelim
    have hc : rxClassOf x s = .ignore := by rw [rxClassOf, hst, classify, if_neg hdelim]
    obtain ⟨t, hdec, hrow, rfl⟩ := decByte_and_row hc rfl
    exact ⟨hdec, hrow⟩
  · rintro rfl
    exact decByte_and_row (c := .escape) (by rw [rxClassOf, hst]; rfl) rfl
  · rintro rfl u hu
    exact decByte_and_row (c := .frameEnd) (by rw [rxClassOf, hst]; rfl)
      (andThen_eq_next.2 ⟨u, hu, rfl⟩)
  · intro hesc hdelim hfull
    have hc : rxClassOf x s = .overflow := by
      rw [rxClassOf_inFrame hst hesc hdelim, rxFull_of_eq hfull, if_pos rfl]
    exact decByte_and_row hc rfl
  · intro hesc hdelim hlt hcap
    have hc : rxClassOf x s = .data := by
      rw [rxClassOf_inFrame hst hesc hdelim, rxFull_of_lt hlt, if_neg Bool.false_ne_true]
    exact decByte_and_row_store hc (rxStore_eq_next.2 ⟨Nat.lt_of_lt_of_le hlt hcap, rfl⟩)
  · rintro rfl hlt hcap
    have hc : rxClassOf subDelim s = .substDelim := by
      rw [rxClassOf, hst, rxFull_of_lt hlt]; rfl
    exact decByte_and_row_store hc (rxSubstituteAct_of_lt (Nat.lt_of_lt_of_le hlt hcap))
  · rintro rfl hlt hcap
    have hc : rxClassOf subEsc s = .substEsc := by
      rw [rxClassOf, hst, rxFull_of_lt hlt]; rfl
    exact decByte_and_row_store hc (rxSubstituteAct_of_lt (Nat.lt_of_lt_of_le hlt hcap))
  · intro hx hfull
    have hc : rxClassOf x s = .full := by
      rw [rxClassOf, hst, rxFull_of_eq hfull]
      obtain rfl | rfl := hx <;> rfl
    exact decByte_and_row hc rfl
  · intro hdelim hesc
    have hc : rxClassOf x s = .badEscape := by
      rw [rxClassOf, hst, classify, if_neg hdelim, if_neg hesc]
    exact decByte_and_row hc rfl

/-! ## ENC_STEP, one rule for each case -/

section EncRules
variable {s : State} {b : Byte}

/-- With every byte sent, the closing delimiter (R130). -/
theorem encStep_close (hp : s.txSize ≠ 0) (he : s.sentSize = s.txSize) :
    encStep s = .next ({ s with
      sentSize := 0
      txSize := 0
      txState := .awaitingDelimiter
      statTxFrames := s.statTxFrames + 1
      encOut := s.encOut ++ [delim] }, true) := by
  have hc : txCase s = .next .close := by
    rw [txCase, if_neg hp]
    simp [he, txCaseOf]
  exact encStep_eq_next.2 ⟨.close, hc, rfl, rfl⟩

/-- Before the first byte, the opening delimiter (R130). -/
theorem encStep_opening (hp : s.txSize ≠ 0) (he : s.sentSize ≠ s.txSize)
    (hst : s.txState = .awaitingDelimiter) :
    encStep s = .next ({ s with txState := .inFrame, encOut := s.encOut ++ [delim] }, false) := by
  have hc : txCase s = .next .opening := by
    rw [txCase, if_neg hp]
    simp [he, hst, txCaseOf]
  exact encStep_eq_next.2 ⟨.opening, hc, rfl, rfl⟩

/-- In IN_FRAME the byte to send decides the case (R130). -/
theorem txCase_inFrame (hp : s.txSize ≠ 0) (he : s.sentSize ≠ s.txSize)
    (hst : s.txState = .inFrame) (hb : readByte .tx s.sentSize.toNat s = .next b) :
    txCase s = .next (if reserved b then .escape else .literal) := by
  rw [txCase, if_neg hp]
  simp [he, hst, hb, txCaseOf]

/-- Before a reserved byte, the escape (R130). -/
theorem encStep_escape (hp : s.txSize ≠ 0) (he : s.sentSize ≠ s.txSize)
    (hst : s.txState = .inFrame) (hb : readByte .tx s.sentSize.toNat s = .next b)
    (hr : reserved b = true) :
    encStep s = .next ({ s with txState := .inEscape, encOut := s.encOut ++ [esc] }, false) := by
  have hc := txCase_inFrame hp he hst hb
  rw [if_pos hr] at hc
  exact encStep_eq_next.2 ⟨.escape, hc, rfl, rfl⟩

/-- Any other byte as it is (R130). -/
theorem encStep_literal (hp : s.txSize ≠ 0) (he : s.sentSize ≠ s.txSize)
    (hst : s.txState = .inFrame) (hb : readByte .tx s.sentSize.toNat s = .next b)
    (hr : reserved b = false) :
    encStep s
      = .next ({ s with sentSize := s.sentSize + 1, encOut := s.encOut ++ [b] }, false) := by
  have hc := txCase_inFrame hp he hst hb
  rw [hr] at hc
  exact encStep_eq_next.2 ⟨.literal, hc, andThen_eq_next.2 ⟨b, hb, rfl⟩, rfl⟩

/-- After the escape, the byte's substitute (R130). -/
theorem encStep_substitute (hp : s.txSize ≠ 0) (he : s.sentSize ≠ s.txSize)
    (hst : s.txState = .inEscape) (hb : readByte .tx s.sentSize.toNat s = .next b) :
    encStep s = .next ({ s with
      sentSize := s.sentSize + 1
      txState := .inFrame
      encOut := s.encOut ++ [substituteOf b] }, false) := by
  have hc : txCase s = .next .substitute := by
    rw [txCase, if_neg hp]
    simp [he, hst, txCaseOf]
  exact encStep_eq_next.2 ⟨.substitute, hc, andThen_eq_next.2 ⟨b, hb, rfl⟩, rfl⟩

end EncRules

/-! ## What the encoder has still to return of a frame -/

/-- The output that ends a frame from an encoder state, with the bytes `rest` of the payload and its
CRC not sent yet (R80, R130). -/
def outputLeft : Framing → List Byte → List Byte
  | _, [] => [delim]
  | .awaitingDelimiter, b :: rest => delim :: (stuff (b :: rest) ++ [delim])
  | .inFrame, b :: rest => stuff (b :: rest) ++ [delim]
  | .inEscape, b :: rest => substituteOf b :: (stuff rest ++ [delim])

/-- In IN_FRAME the rest is stuffed and closed, whether there is any or not. -/
theorem outputLeft_inFrame (rest : List Byte) :
    outputLeft .inFrame rest = stuff rest ++ [delim] := by
  cases rest <;> rfl

/-- The frame of the bytes `d` of TXBUF is pending (R35, R50). -/
structure Sending (d : List Byte) (s : State) : Prop where
  nonempty : d ≠ []
  size : s.txSize.toNat = d.length
  stored : Holds s.txBuf d
  inside : d.length ≤ s.build.bufCap
  sent : s.sentSize.toNat ≤ d.length

/-- `out` is what the encoder has still to return of the frame of `d`. While it is some bytes the
frame is pending and `n` frames are counted; with the last one the frame ends and is counted
(R134, R135). -/
inductive TxPhase (d : List Byte) (n : Stat) (out : List Byte) (s : State) : Prop where
  | pending (h : Sending d s) (hn : s.statTxFrames = n)
      (hout : out = outputLeft s.txState (d.drop s.sentSize.toNat))
  | ended (hout : out = []) (hn : s.statTxFrames = n + 1) (hsize : s.txSize = 0)
      (hsent : s.sentSize = 0) (hst : s.txState = .awaitingDelimiter)

section Output
variable {d out : List Byte} {n : Stat} {y : Byte} {s : State}

/-- A frame that is pending has its closing delimiter to come. -/
theorem outputLeft_ne_nil (st : Framing) (rest : List Byte) : outputLeft st rest ≠ [] := by
  cases rest <;> cases st <;> simp [outputLeft]

/-- A frame with output to come is pending. -/
theorem TxPhase.sending (h : TxPhase d n out s) (hne : out ≠ []) :
    Sending d s ∧ s.statTxFrames = n ∧ out = outputLeft s.txState (d.drop s.sentSize.toNat) := by
  cases h with
  | pending h hn hout => exact ⟨h, hn, hout⟩
  | ended hout => exact absurd hout hne

/-- TX_SIZE is not 0 while a frame is pending (R51). -/
theorem Sending.txSize_ne_zero (h : Sending d s) : s.txSize ≠ 0 := by
  intro h0
  have hlen : d.length = 0 := by rw [← h.size, h0]; rfl
  exact h.nonempty (List.length_eq_zero_iff.1 hlen)

/-- With output to come TX_SIZE is not 0. -/
theorem TxPhase.txSize_ne_zero (h : TxPhase d n out s) (hne : out ≠ []) : s.txSize ≠ 0 :=
  (h.sending hne).1.txSize_ne_zero

/-- Without, the frame has ended, and is counted. -/
theorem TxPhase.ended_of_nil (h : TxPhase d n [] s) : s.txSize = 0 ∧ s.statTxFrames = n + 1 := by
  cases h with
  | pending h hn hout => exact absurd hout.symm (outputLeft_ne_nil _ _)
  | ended _ hn hsize => exact ⟨hsize, hn⟩

/-- After the last byte, SENT_SIZE is TX_SIZE. -/
theorem Sending.sent_eq (h : Sending d s) (hd : d.drop s.sentSize.toNat = []) :
    s.sentSize = s.txSize := by
  have hle : d.length ≤ s.sentSize.toNat := List.drop_eq_nil_iff.1 hd
  exact BitVec.eq_of_toNat_eq (h.size ▸ Nat.le_antisymm h.sent hle)

/-- With bytes left, the next of them stands in TXBUF at SENT_SIZE. -/
theorem Sending.next_byte (h : Sending d s) {b : Byte} {rest : List Byte}
    (hd : d.drop s.sentSize.toNat = b :: rest) :
    s.sentSize ≠ s.txSize ∧ readByte .tx s.sentSize.toNat s = .next b
      ∧ (s.sentSize + 1).toNat ≤ d.length ∧ d.drop (s.sentSize + 1).toNat = rest := by
  have hlt : s.sentSize.toNat < d.length := by
    by_contra hge
    rw [List.drop_eq_nil_of_le (Nat.le_of_not_lt hge)] at hd
    cases hd
  have hsize := h.size
  have hmax := s.txSize.isLt
  have hsucc : (s.sentSize + 1).toNat = s.sentSize.toNat + 1 := by bv_omega
  have hcap := h.inside
  refine ⟨fun he => ?_, readByte_eq_next.2 ⟨by omega, (h.stored _ hlt).trans ?_⟩,
    hsucc ▸ hlt, ?_⟩
  · rw [he] at hlt
    omega
  · rw [← Nat.add_zero s.sentSize.toNat, ← List.getElem?_drop, hd]
    rfl
  · rw [hsucc, ← List.drop_drop, hd]
    rfl

/-- An ENC_STEP that does not close the frame leaves the output of its new state to come. -/
theorem Sending.continues (h : Sending d s) (hn : s.statTxFrames = n) {st : Framing} {sent : Size}
    (hstep : encStep s = .next
      ({ s with txState := st, sentSize := sent, encOut := s.encOut ++ [y] }, false))
    (hsent : sent.toNat ≤ d.length) (hout : out = outputLeft st (d.drop sent.toNat)) :
    ∃ t, encStep s = .next (t, out.isEmpty) ∧ t.encOut = s.encOut ++ [y] ∧ TxPhase d n out t := by
  have hopen : out.isEmpty = false := by simpa [hout] using outputLeft_ne_nil st _
  rw [hopen]
  exact ⟨_, hstep, rfl, .pending { h with sent := hsent } hn hout⟩

/-- An ENC_STEP returns the next byte to come, and closes the frame with the last one (R130,
R134). -/
theorem TxPhase.encStep_next (h : TxPhase d n (y :: out) s) :
    ∃ t, encStep s = .next (t, out.isEmpty) ∧ t.encOut = s.encOut ++ [y] ∧ TxPhase d n out t := by
  obtain ⟨hs, hn, hout⟩ := h.sending nofun
  have hp := hs.txSize_ne_zero
  cases hd : d.drop s.sentSize.toNat with
  | nil =>
    rw [hd] at hout
    cases hout
    exact ⟨_, encStep_close hp (hs.sent_eq hd), rfl, .ended rfl (by rw [← hn]) rfl rfl rfl⟩
  | cons b rest =>
    obtain ⟨hne, hb, hsent, hrest⟩ := hs.next_byte hd
    rw [hd] at hout
    cases hst : s.txState with
    | awaitingDelimiter =>
      rw [hst] at hout
      cases hout
      exact hs.continues hn (encStep_opening hp hne hst) hs.sent (by rw [hd, outputLeft])
    | inFrame =>
      rw [hst, outputLeft_inFrame] at hout
      cases hr : reserved b with
      | true =>
        rw [stuff_cons_of_reserved rest hr] at hout
        cases hout
        exact hs.continues hn (encStep_escape hp hne hst hb hr) hs.sent (by rw [hd]; rfl)
      | false =>
        rw [stuff_cons_of_not_reserved rest hr] at hout
        cases hout
        exact hs.continues hn (encStep_literal hp hne hst hb hr) hsent
          (by rw [hrest, hst, outputLeft_inFrame]; rfl)
    | inEscape =>
      rw [hst] at hout
      cases hout
      exact hs.continues hn (encStep_substitute hp hne hst hb) hsent
        (by rw [hrest, outputLeft_inFrame])

/-- The ENC_STEPs of one unit return the next bytes to come, as many as there are of them up to
their bound (R192, R193). -/
theorem TxPhase.encSteps_next (h : TxPhase d n out s) (hne : out ≠ []) (more : Nat) :
    ∃ t, encSteps more s = .next t ∧ t.encOut = s.encOut ++ out.take (more + 1)
      ∧ TxPhase d n (out.drop (more + 1)) t := by
  induction more generalizing s out with
  | zero =>
    obtain ⟨y, rest, rfl⟩ := List.exists_cons_of_ne_nil hne
    obtain ⟨t, ht, hy, hphase⟩ := h.encStep_next
    exact ⟨t, andThen_eq_next.2 ⟨_, ht, rfl⟩, hy, hphase⟩
  | succ more ih =>
    obtain ⟨y, rest, rfl⟩ := List.exists_cons_of_ne_nil hne
    obtain ⟨t, ht, hy, hphase⟩ := h.encStep_next
    cases rest with
    | nil => exact ⟨t, andThen_eq_next.2 ⟨_, ht, rfl⟩, hy, hphase⟩
    | cons z rest =>
      obtain ⟨u, hu, hout, hphase'⟩ := ih hphase nofun
      exact ⟨u, andThen_eq_next.2 ⟨_, ht, hu⟩, by simp [hout, hy], hphase'⟩

/-- The encoder's output and the records of the ports do not matter to the output to come. -/
theorem TxPhase.withRecords (h : TxPhase d n out s) {enc : List Byte} {replies : List Reply}
    {txs rxs : List Bool} {events : List Event} :
    TxPhase d n out { s with
      encOut := enc
      replies := replies
      txReadyIn := txs
      rxReadyIn := rxs
      events := events } := by
  cases h with
  | pending h hn hout => exact .pending { h with } hn hout
  | ended hout hn hsize hsent hst => exact .ended hout hn hsize hsent hst

/-- From a loaded payload the whole frame is to come (R80). -/
theorem Loaded.txPhase {p : List Byte} (h : Loaded p s) :
    TxPhase (withCrc p) s.statTxFrames (frame p) s := by
  have hne : withCrc p ≠ [] := List.ne_nil_of_length_pos (by simp)
  obtain ⟨b, rest, hd⟩ := List.exists_cons_of_ne_nil hne
  refine .pending ⟨hne, by simp [h.size], h.stored, by simpa using h.inside, ?_⟩ rfl ?_
  · simp [h.nothingSent]
  · simp [h.nothingSent, h.state, frame, hd, outputLeft]

end Output

/-! ## TASKs that transmit and find nothing to receive -/

section Tasks
variable {d out : List Byte} {n : Stat} {s : State}

/-- How many bytes a TASK may send: one on a STREAM link (R192), CHUNK on a MESSAGE link (R193). -/
def unitSize (s : State) : Nat := moreSteps s + 1

theorem unitSize_stream (hk : s.cfgKind = .stream) : unitSize s = 1 := by
  simp [unitSize, moreSteps, hk]

theorem unitSize_message (hk : s.cfgKind = .message) (hc : 1 ≤ s.cfgChunk.toNat) :
    unitSize s = s.cfgChunk.toNat := by
  simp [unitSize, moreSteps, hk]
  omega

@[simp] theorem sentUnits_map_txSend (us : List LinkUnit) : sentUnits (us.map .txSend) = us := by
  induction us with
  | nil => rfl
  | cons u us ih => simp [sentUnits, ih]

/-- A transmit sub-step with the link ready sends the next bytes to come (R190, R192, R193). -/
theorem TxPhase.txSubStep_next (h : TxPhase d n out s) (hne : out ≠ []) {txs : List Bool}
    (htx : s.txReadyIn = true :: txs) :
    ∃ t, txSubStep s = .next t ∧ t.txReadyIn = txs
      ∧ sentUnits t.events
          = sentUnits s.events ++ txUnits s.cfgKind s.txLinkId (out.take (unitSize s))
      ∧ TxPhase d n (out.drop (unitSize s)) t := by
  obtain ⟨u, hu, hout, hphase⟩ := (h.withRecords (enc := []) (replies := s.replies) (txs := txs)
    (rxs := s.rxReadyIn) (events := s.events ++ [.txReady true])).encSteps_next hne (moreSteps s)
  obtain ⟨us, -, -, hframe⟩ := encSteps_frame hu
  have hsend : txSubStep s = .next (txSend u) := by
    simp only [txSubStep, txReady_cons htx]
    rw [if_pos ⟨trivial, h.txSize_ne_zero hne⟩]
    exact andThen_eq_next.2 ⟨u, hu, rfl⟩
  refine ⟨_, hsend, ?_, ?_, hphase.withRecords⟩
  · rw [txSend_txReadyIn, hframe]
  · rw [txSend_events, hout, hframe]
    simp [sentUnits, unitSize]

/-- A TASK whose link is ready to transmit, with nothing to receive, sends the next bytes to come
(R190, R197). -/
theorem TxPhase.task_next (h : TxPhase d n out s) (hne : out ≠ []) (hl : s.live = true)
    {txs rxs : List Bool} (htx : s.txReadyIn = true :: txs) (hrx : s.rxReadyIn = false :: rxs) :
    ∃ t, execTask s = .next t ∧ t.txReadyIn = txs ∧ t.rxReadyIn = rxs
      ∧ sentUnits t.events
          = sentUnits s.events ++ txUnits s.cfgKind s.txLinkId (out.take (unitSize s))
      ∧ TxPhase d n (out.drop (unitSize s)) t := by
  obtain ⟨u, hu, htx', hev, hphase⟩ := h.txSubStep_next hne htx
  have hrx' : u.rxReadyIn = false :: rxs := by rw [(txSubStep_frame hu).1]; exact hrx
  exact ⟨_, (execTask_live hl).2 ⟨_, _, hu, rxSubStep_of_no_unit hrx', rfl⟩, htx', rfl,
    by simp [sentUnits, hev], hphase.withRecords⟩

/-- The first `k` pieces of `c` bytes of a byte sequence. -/
def pieces (c : Nat) : Nat → List Byte → List (List Byte)
  | 0, _ => []
  | k + 1, out => out.take c :: pieces c k (out.drop c)

/-- TASKs up to the frame's end send the bytes to come, each its piece of them (R284). -/
theorem TxPhase.taskRun_next {k c : Nat} (h : TxPhase d n out s) (hk : k * c < out.length + c)
    (hc : unitSize s = c) (hl : s.live = true) {txs rxs : List Bool}
    (htx : s.txReadyIn = List.replicate k true ++ txs)
    (hrx : s.rxReadyIn = List.replicate k false ++ rxs) :
    ∃ t, taskRun k s = .next t
      ∧ sentUnits t.events
          = sentUnits s.events ++ (pieces c k out).flatMap (txUnits s.cfgKind s.txLinkId)
      ∧ TxPhase d n (out.drop (k * c)) t := by
  induction k generalizing s out with
  | zero => exact ⟨s, rfl, by simp [pieces], by simpa using h⟩
  | succ k ih =>
    rw [Nat.succ_mul] at hk
    have hne : out ≠ [] := List.ne_nil_of_length_pos (by omega)
    obtain ⟨t, ht, htx', hrx', hev, hphase⟩ := h.task_next hne hl htx hrx
    have hframe := execTask_withTaskOf ht
    rw [hc] at hev hphase
    have hk' : k * c < (out.drop c).length + c := by rw [List.length_drop]; omega
    have hc' : unitSize t = c := by rw [hframe]; exact hc
    have hl' : t.live = true := by rw [hframe]; exact hl
    have hkind : t.cfgKind = s.cfgKind := by rw [hframe]; rfl
    have hid : t.txLinkId = s.txLinkId := by rw [hframe]; rfl
    obtain ⟨u, hu, hev', hphase'⟩ := ih hphase hk' hc' hl' htx' hrx'
    refine ⟨u, andThen_eq_next.2 ⟨t, ht, hu⟩, ?_, ?_⟩
    · rw [hev', hev, hkind, hid, pieces, List.flatMap_cons, List.append_assoc]
    · rwa [List.drop_drop, Nat.add_comm c, ← Nat.succ_mul] at hphase'

/-- Before the frame's last TASK the frame is pending. -/
theorem TxPhase.taskRun_pending {j k c : Nat} (h : TxPhase d n out s) (hj : j < k)
    (hjc : j * c < out.length) (hc : unitSize s = c) (hl : s.live = true) {txs rxs : List Bool}
    (htx : s.txReadyIn = List.replicate k true ++ txs)
    (hrx : s.rxReadyIn = List.replicate k false ++ rxs) :
    ∃ u, taskRun j s = .next u ∧ u.txSize ≠ 0 := by
  obtain ⟨m, rfl⟩ := Nat.exists_eq_add_of_le (Nat.le_of_lt hj)
  rw [List.replicate_add, List.append_assoc] at htx hrx
  obtain ⟨u, hu, -, hphase⟩ := h.taskRun_next (by omega) hc hl htx hrx
  exact ⟨u, hu, hphase.txSize_ne_zero (by simpa using hjc)⟩

end Tasks

/-! ## The pieces of a byte sequence -/

section Pieces
variable {c k : Nat} {out : List Byte}

@[simp] theorem length_pieces : (pieces c k out).length = k := by
  induction k generalizing out with
  | zero => rfl
  | succ k ih => simp [pieces, ih]

/-- Together the pieces are the bytes they were cut from. -/
theorem flatten_pieces : (pieces c k out).flatten = out.take (k * c) := by
  induction k generalizing out with
  | zero => simp [pieces]
  | succ k ih => rw [pieces, List.flatten_cons, ih, Nat.succ_mul, Nat.add_comm, List.take_add]

/-- Pieces up to the end of the bytes are not empty, and none is longer than `c`. -/
theorem length_of_mem_pieces (hc : 1 ≤ c) (hk : k * c < out.length + c) {u : List Byte}
    (hu : u ∈ pieces c k out) : 1 ≤ u.length ∧ u.length ≤ c := by
  induction k generalizing out with
  | zero => cases hu
  | succ k ih =>
    rw [Nat.succ_mul] at hk
    obtain rfl | hu := List.mem_cons.1 hu
    · rw [List.length_take]
      omega
    · exact ih (by rw [List.length_drop]; omega) hu

/-- Every piece but the last has `c` bytes. -/
theorem length_of_mem_dropLast_pieces (hk : k * c < out.length + c) {u : List Byte}
    (hu : u ∈ (pieces c k out).dropLast) : u.length = c := by
  induction k generalizing out with
  | zero => cases hu
  | succ k ih =>
    cases k with
    | zero => cases hu
    | succ k =>
      rw [Nat.succ_mul] at hk
      obtain rfl | hu := List.mem_cons.1 hu
      · rw [Nat.succ_mul] at hk
        rw [List.length_take]
        omega
      · exact ih (by rw [List.length_drop]; omega) hu

/-- Sent as MESSAGE units, each piece is one unit (R90). -/
theorem flatMap_txUnits_message (id : LinkId) (us : List (List Byte)) :
    us.flatMap (txUnits .message id) = us.map (.message id) := by
  induction us with
  | nil => rfl
  | cons u us ih => rw [List.flatMap_cons, ih]; rfl

/-- Sent as STREAM units, each byte is one unit (R89). -/
theorem flatMap_txUnits_stream (id : LinkId) (us : List (List Byte)) :
    us.flatMap (txUnits .stream id) = us.flatten.map .byte := by
  induction us with
  | nil => rfl
  | cons u us ih => rw [List.flatMap_cons, ih, List.flatten_cons, List.map_append]; rfl

end Pieces

/-- Settles O52: from a loaded payload the whole frame is to come, and each TASK sends one byte of
it. -/
theorem streamFrameTakesItsLengthInTasks : Obligations.StreamFrameTakesItsLengthInTasks := by
  intro s p txs rxs hl hk hload htx hrx
  have hc := unitSize_stream hk
  refine ⟨?_, fun k hlt => hload.txPhase.taskRun_pending hlt (by omega) hc hl htx hrx⟩
  obtain ⟨t, ht, hev, hphase⟩ := hload.txPhase.taskRun_next (by omega) hc hl htx hrx
  rw [Nat.mul_one, List.drop_length] at hphase
  rw [hk, flatMap_txUnits_stream, flatten_pieces, Nat.mul_one, List.take_length] at hev
  exact ⟨t, ht, hev, hphase.ended_of_nil⟩

/-- The pieces of `c` bytes that `l` bytes make: the last one may be short. -/
theorem ceilDiv_bounds {l c k : Nat} (hc : 1 ≤ c) (hk : k = (l + c - 1) / c) :
    l ≤ k * c ∧ k * c < l + c := by
  have hdiv := Nat.div_add_mod (l + c - 1) c
  have hmod := Nat.mod_lt (l + c - 1) hc
  rw [← hk, Nat.mul_comm] at hdiv
  omega

/-- Settles O53: from a loaded payload the whole frame is to come, and each TASK sends the next
CHUNK bytes of it, or all that is left. -/
theorem messageFrameTakesItsChunksInTasks : Obligations.MessageFrameTakesItsChunksInTasks := by
  intro s p k txs rxs hl hk hchunk hload hdiv htx hrx
  have hc := unitSize_message hk hchunk
  obtain ⟨hall, hlast⟩ := ceilDiv_bounds hchunk hdiv
  refine ⟨?_, fun j hj => hload.txPhase.taskRun_pending hj ?_ hc hl htx hrx⟩
  · obtain ⟨t, ht, hev, hphase⟩ := hload.txPhase.taskRun_next hlast hc hl htx hrx
    rw [List.drop_of_length_le hall] at hphase
    rw [hk, flatMap_txUnits_message] at hev
    exact ⟨t, _, ht, hev, length_pieces, by rw [flatten_pieces, List.take_of_length_le hall],
      fun u => length_of_mem_pieces hchunk hlast, fun u => length_of_mem_dropLast_pieces hlast,
      hphase.ended_of_nil⟩
  · have hle : (j + 1) * s.cfgChunk.toNat ≤ k * s.cfgChunk.toNat := Nat.mul_le_mul_right _ hj
    rw [Nat.succ_mul] at hle
    omega

end Sys2Proof.Machine
end

section
/-! PROOFS. Scope: the CRC (spec/40). The check value (O12), what CRC16 answers (O13), and that
every change of one byte is detected (O15): the working register can be traced back through each
bit-step, since the bit shifted out is left in bit 15. -/

namespace Sys2Proof.Machine

open Sys2Proof

/-! ## The generator loses nothing -/

/-- A bit-step with the bit shifted out as a `Bool` (R111). -/
theorem crcBit_eq (r : Crc) :
    crcBit r = (r >>> 1) ^^^ (if r.getLsbD 0 then 0x8408#16 else 0#16) := by
  have hbit : (r &&& 1#16 = 1#16) ↔ r.getLsbD 0 = true := by
    rw [BitVec.and_one_eq_setWidth_ofBool_getLsbD]
    cases r.getLsbD 0 <;> decide
  unfold crcBit
  simp only [hbit]
  split
  · rfl
  · exact (BitVec.xor_zero).symm

/-- The bit shifted out is bit 15 of the result: the shift clears it and the polynomial sets it. -/
theorem msb_crcBit (r : Crc) : (crcBit r).msb = r.getLsbD 0 := by
  have hclear : (r >>> 1).msb = false := by simp [BitVec.msb_ushiftRight]
  rw [crcBit_eq, BitVec.msb_xor, hclear, Bool.false_xor]
  cases r.getLsbD 0 <;> rfl

/-- A word is its bit 0 and the word shifted right by one. -/
theorem eq_of_bit_zero_of_ushiftRight_one {r s : Crc} (hbit : r.getLsbD 0 = s.getLsbD 0)
    (hshift : r >>> 1 = s >>> 1) : r = s := by
  refine BitVec.eq_of_getLsbD_eq fun i _ => ?_
  cases i with
  | zero => exact hbit
  | succ i =>
    have hi : (r >>> 1).getLsbD i = (s >>> 1).getLsbD i := by rw [hshift]
    simpa [Nat.add_comm 1 i] using hi

/-- Bit 15 tells whether the polynomial was added, so a bit-step can be undone. -/
theorem crcBit_injective : Function.Injective crcBit := by
  intro r s h
  have hbit : r.getLsbD 0 = s.getLsbD 0 := by rw [← msb_crcBit, ← msb_crcBit, h]
  rw [crcBit_eq, crcBit_eq, hbit] at h
  exact eq_of_bit_zero_of_ushiftRight_one hbit ((BitVec.xor_left_inj _).1 h)

theorem crcBits_injective (n : Nat) : Function.Injective (crcBits n) := by
  induction n with
  | zero => exact Function.injective_id
  | succ n ih => exact ih.comp crcBit_injective

/-- Different registers stay different after the same byte. -/
theorem crcByte_register_injective (b : Byte) : Function.Injective (crcByte · b) :=
  fun _ _ h => (BitVec.xor_left_inj _).1 (crcBits_injective 8 h)

/-- Different bytes give different registers: a byte fits the low 8 bits. -/
theorem crcByte_byte_injective (r : Crc) : Function.Injective (crcByte r) := by
  intro b c h
  have hwide : b.setWidth 16 = c.setWidth 16 := (BitVec.xor_right_inj _).1 (crcBits_injective 8 h)
  simpa using congrArg (BitVec.setWidth 8) hwide

/-- Different registers stay different after the same bytes. -/
theorem crcFrom_register_injective (d : List Byte) : Function.Injective (crcFrom · d) := by
  induction d with
  | nil => exact Function.injective_id
  | cons b d ih => exact ih.comp (crcByte_register_injective b)

theorem crcFrom_append_cons (r : Crc) (d e : List Byte) (b : Byte) :
    crcFrom r (d ++ b :: e) = crcFrom (crcByte (crcFrom r d) b) e :=
  List.foldl_append

/-- Settles O15: the changed byte makes the registers differ, and the bytes after it and the final
XOR keep them different. -/
theorem crcDetectsOneChangedByte : Obligations.CrcDetectsOneChangedByte := by
  intro before after b c hne heq
  have hfrom := (BitVec.xor_left_inj _).1 heq
  rw [crcFrom_append_cons, crcFrom_append_cons] at hfrom
  exact hne (crcByte_byte_injective _ (crcFrom_register_injective after hfrom))

/-! ## The check value and the answer -/

/-- Settles O12: the generator runs on the nine bytes, and the serialised form is that value's two
halves. -/
theorem crc16CheckValue : Obligations.Crc16CheckValue := by
  have hvalue : crc16 [0x31#8, 0x32#8, 0x33#8, 0x34#8, 0x35#8, 0x36#8, 0x37#8, 0x38#8, 0x39#8]
      = 0x906E#16 := by
    simp [crc16, crcFrom, crcByte, crcBits, crcBit]
  refine ⟨hvalue, ?_⟩
  rw [crcBytes, hvalue]
  rfl

/-- The opcode 0x05 names CRC16 on the data operand (R95, R96). -/
theorem instr_of_op_crc16 {c : Command} (h : c.op = 0x05#8) : c.instr = .crc16 c.data := by
  simp [Command.instr, h]

/-- CRC16 answers V of its data in every state (R113). -/
theorem exec_crc16 (data : List Byte) (s : State) :
    exec (.crc16 data) s = .next (s.reply .ok (crc16 data).toNat) := rfl

/-- Settles O13: no check fails for CRC16, so the command decodes to it; on no bytes the initial
value and the final XOR cancel. -/
theorem crc16Answers : Obligations.Crc16Answers := by
  refine ⟨fun s c rest hp hop => ?_, fun s data => exec_crc16 data s, exec_crc16 []⟩
  rw [step_of_decode_ok hp (decode_eq_ok.2 ⟨instr_of_op_crc16 hop, rfl⟩), exec_crc16]

end Sys2Proof.Machine
end

section
/-! PROOFS. Scope: the encoder (spec/41). What an ENC_STEP does, said once (O22, O23, O24); that the
ENC_STEPs of a frame return it (O25), from the `TxPhase` of the encoding part; that the encoder sees
nothing of the receive side (O26); that both codec steps are rows of the table (O36); and where sent
frames are counted (O54). -/

namespace Sys2Proof.Machine

open Sys2Proof

/-! ## Runs of ENC_STEPs -/

/-- `s` with what an ENC_STEP may change taken from `v` (R136). -/
def State.withEncoderOf (s v : State) : State :=
  { s with
    txState := v.txState
    txSize := v.txSize
    sentSize := v.sentSize
    statTxFrames := v.statTxFrames
    encOut := v.encOut }

section Runs
variable {d out : List Byte} {n : Stat} {s t u : State} {closed : Bool}

/-- The frame of an ENC_STEP and of the steps after it is the frame of them all. -/
theorem withEncoderOf_trans (h1 : t = s.withEncoderOf t) (h2 : u = t.withEncoderOf u) :
    u = s.withEncoderOf u :=
  h2.trans (congrArg (·.withEncoderOf u) h1)

theorem encStep_withEncoderOf (h : encStep s = .next (t, closed)) : t = s.withEncoderOf t := by
  obtain ⟨c, -, ht, -⟩ := encStep_eq_next.1 h
  obtain ⟨y, hy⟩ := txAct_frame ht
  rw [hy]
  rfl

/-- A run of ENC_STEPs returns the next bytes to come, one a step, and changes the encoder alone
(R131, R134). -/
theorem TxPhase.encRun_next (h : TxPhase d n out s) {k : Nat} (hk : k ≤ out.length) :
    ∃ t, encRun k s = .next t ∧ t = s.withEncoderOf t ∧ t.encOut = s.encOut ++ out.take k
      ∧ TxPhase d n (out.drop k) t := by
  induction k generalizing s out with
  | zero => exact ⟨s, rfl, rfl, by simp, h⟩
  | succ k ih =>
    obtain ⟨y, rest, rfl⟩ := List.exists_cons_of_length_pos (Nat.lt_of_lt_of_le k.succ_pos hk)
    obtain ⟨u, hu, hy, hphase⟩ := h.encStep_next
    obtain ⟨t, ht, hframe, hout, hphase'⟩ := ih hphase (Nat.le_of_succ_le_succ hk)
    exact ⟨t, andThen_eq_next.2 ⟨_, hu, ht⟩,
      withEncoderOf_trans (encStep_withEncoderOf hu) hframe, by simp [hout, hy], hphase'⟩

/-- After the last byte the frame has ended and is counted: the whole of the encoder's state
(R130). -/
theorem TxPhase.withEncoderOf_ended (h : TxPhase d n [] t) :
    s.withEncoderOf t = { s with
      txState := .awaitingDelimiter
      txSize := 0
      sentSize := 0
      statTxFrames := n + 1
      encOut := t.encOut } := by
  cases h with
  | pending _ _ hout => exact absurd hout.symm (outputLeft_ne_nil _ _)
  | ended _ hn hsize hsent hst => rw [State.withEncoderOf, hn, hsize, hsent, hst]

end Runs

/-- Settles O25: a loaded payload has its whole frame to come, a run of ENC_STEPs returns it byte by
byte, and with bytes to come the frame is pending at its size. -/
theorem encoderEmitsFrame : Obligations.EncoderEmitsFrame := by
  intro s p h
  refine ⟨?_, fun k hk => ?_⟩
  · obtain ⟨t, ht, hframe, hout, hphase⟩ := h.txPhase.encRun_next (Nat.le_refl _)
    rw [List.drop_length] at hphase
    rw [List.take_length] at hout
    rw [ht, hframe, hphase.withEncoderOf_ended, hout]
  · obtain ⟨u, hu, -, -, hphase⟩ := h.txPhase.encRun_next (Nat.le_of_lt hk)
    obtain ⟨hsending, -⟩ := hphase.sending (by simpa using hk)
    have hsize : u.txSize.toNat = s.txSize.toNat := by rw [hsending.size, length_withCrc, h.size]
    exact ⟨u, hu, BitVec.eq_of_toNat_eq hsize⟩

/-! ## The case of an ENC_STEP and its row -/

section Cases
variable {s t u : State} {c : TxCase} {closed : Bool}

/-- ENC_STEP, and the row of its case by itself, do what the case does. -/
theorem encStep_and_row (hc : txCase s = .next c) (ht : txAct c s = .next u) :
    ∃ t, encStep s = .next (t, c == .close) ∧ runTxRow c s = .next t ∧ t = u :=
  ⟨u, encStep_eq_next.2 ⟨c, hc, ht, rfl⟩, runTxRow_eq_next.2 ⟨hc, ht⟩, rfl⟩

/-- Where no byte of TXBUF decides the case, the encoder's state and sizes do (R130). -/
theorem txCase_of_no_read (hp : s.txSize ≠ 0)
    (hno : ¬(s.sentSize ≠ s.txSize ∧ s.txState = .inFrame)) :
    txCase s = .next (txCaseOf s.txState (s.sentSize == s.txSize) 0#8) := by
  rw [txCase, if_neg hp, if_neg hno]

theorem txCase_close (hp : s.txSize ≠ 0) (he : s.sentSize = s.txSize) :
    txCase s = .next .close := by
  rw [txCase_of_no_read hp fun hf => hf.1 he, he, beq_self_eq_true]
  rfl

/-- With bytes left, outside IN_FRAME, the case is that of the encoder's state (R130). -/
theorem txCase_outside_frame (hp : s.txSize ≠ 0) (he : s.sentSize ≠ s.txSize)
    (hst : s.txState ≠ .inFrame) : txCase s = .next (txCaseOf s.txState false 0#8) := by
  rw [txCase_of_no_read hp fun hf => hst hf.2, beq_false_of_ne he]

/-- An ENC_STEP that answers closes the frame, or goes on in it with one byte more and the measure
raised (R130, R133). -/
theorem encStep_closes_or_goes_on (h : encStep s = .next (t, closed)) :
    (closed = true ∧ t = { s with
        sentSize := 0
        txSize := 0
        txState := .awaitingDelimiter
        statTxFrames := s.statTxFrames + 1
        encOut := s.encOut ++ [delim] })
      ∨ closed = false ∧ ∃ st sent y,
          t = { s with txState := st, sentSize := sent, encOut := s.encOut ++ [y] }
            ∧ (s.sentSize.toNat ≤ s.txSize.toNat → encMeasure s < encMeasure t) := by
  obtain ⟨c, hc, ht, rfl⟩ := encStep_eq_next.1 h
  have hsucc (hne : s.sentSize ≠ s.txSize) (hle : s.sentSize.toNat ≤ s.txSize.toNat) :
      (s.sentSize + 1).toNat = s.sentSize.toNat + 1 := by bv_omega
  obtain ⟨-, ⟨-, rfl⟩ | ⟨-, hst, rfl⟩ | ⟨hne, hst, b, -, rfl⟩ | ⟨hne, hst, rfl⟩⟩ :=
    txCase_eq_next hc
  · cases ht
    exact .inl ⟨rfl, rfl⟩
  · cases ht
    exact .inr ⟨rfl, _, _, _, rfl, fun _ => by simp [encMeasure, hst]⟩
  · cases hr : reserved b with
    | true =>
      rw [hr] at ht
      cases ht
      exact .inr ⟨rfl, _, _, _, rfl, fun _ => by simp [encMeasure, hst]⟩
    | false =>
      rw [hr] at ht
      obtain ⟨b', -, ht⟩ := andThen_eq_next.1 ht
      cases ht
      refine .inr ⟨rfl, _, _, _, rfl, fun hle => ?_⟩
      simp only [encMeasure, hst, hsucc hne hle]
      omega
  · obtain ⟨b, -, ht⟩ := andThen_eq_next.1 ht
    cases ht
    refine .inr ⟨rfl, _, _, _, rfl, fun hle => ?_⟩
    simp only [encMeasure, hst, hsucc hne hle]
    omega

end Cases

/-- Settles O22: the case that the state and the byte at SENT_SIZE select, and what it does. -/
theorem encStepFollowsCases : Obligations.EncStepFollowsCases := by
  intro s
  refine ⟨fun h0 => ?_, fun hp he => encStep_and_row (txCase_close hp he) rfl,
    fun hp he => ⟨fun hst => ?_, fun b hcap hread => ⟨fun hst hb => ?_, fun hst hdelim hesc => ?_,
      fun hst => ?_⟩⟩⟩
  · rw [encStep, txCase, if_pos h0, andThen_fault]
  · have hc := txCase_outside_frame hp he (by simp [hst])
    rw [hst] at hc
    exact encStep_and_row hc rfl
  · have hc := txCase_inFrame hp he hst (readByte_eq_next.2 ⟨hcap, hread⟩)
    rw [if_pos (reserved_iff.2 hb)] at hc
    exact encStep_and_row hc rfl
  · have hbyte : readByte .tx s.sentSize.toNat s = .next b := readByte_eq_next.2 ⟨hcap, hread⟩
    have hc := txCase_inFrame hp he hst hbyte
    rw [not_reserved_iff.2 ⟨hdelim, hesc⟩] at hc
    exact encStep_and_row hc (andThen_eq_next.2 ⟨b, hbyte, rfl⟩)
  · have hbyte : readByte .tx s.sentSize.toNat s = .next b := readByte_eq_next.2 ⟨hcap, hread⟩
    have hc := txCase_outside_frame hp he (by simp [hst])
    rw [hst] at hc
    exact encStep_and_row hc (andThen_eq_next.2 ⟨b, hbyte, rfl⟩)

/-- Settles O23: every case appends one byte, by the frame of the cases. -/
theorem oneByteEachEncStep : Obligations.OneByteEachEncStep := by
  intro s t closed h
  obtain ⟨c, -, ht, -⟩ := encStep_eq_next.1 h
  obtain ⟨u, hu⟩ := txAct_frame ht
  exact ⟨u, congrArg State.encOut hu⟩

/-! ## A frame is bounded -/

/-- In every good state a pending frame is one of bytes that stand in TXBUF (R50, R55, R57). -/
theorem Inv.sending {s : State} (h : Inv s) (hp : s.txSize ≠ 0) : ∃ d, Sending d s := by
  have hlive : s.live = true := by
    by_contra hl
    exact hp (congrArg State.txSize (h.notLive (Bool.eq_false_of_not_eq_true hl)).symm)
  obtain ⟨p, hlen, hold⟩ := h.pending hp
  have hsizes := h.sizes
  have hcap := (h.config hlive).2
  exact ⟨withCrc p, List.ne_nil_of_length_pos (by simp), by simp [hlen], hold,
    by rw [length_withCrc]; omega, by rw [length_withCrc]; omega⟩

/-- Stuffing at most doubles (R85, R86). -/
theorem length_stuff_le (d : List Byte) : (stuff d).length ≤ 2 * d.length := by
  have hle : d.countP reserved ≤ d.length := List.countP_le_length
  rw [length_stuff]
  omega

/-- Beside the stuffed bytes, the two delimiters are all that is to come (R86). -/
theorem length_outputLeft_le (st : Framing) (rest : List Byte) :
    (outputLeft st rest).length ≤ 2 * rest.length + 2 := by
  cases rest with
  | nil => simp [outputLeft]
  | cons b rest =>
    have hall := length_stuff_le (b :: rest)
    have hrest := length_stuff_le rest
    rw [List.length_cons] at hall ⊢
    cases st <;> simp only [outputLeft, List.length_cons, List.length_append, List.length_nil] <;>
      omega

/-- Settles O24: a step that does not close raises the measure; and as many steps as there are bytes
to come end the frame. -/
theorem encStepMakesProgress : Obligations.EncStepMakesProgress := by
  refine ⟨fun s t closed hle h => ?_, fun s hinv hp => ?_⟩
  · obtain ⟨hclosed, -⟩ | ⟨-, st, sent, y, -, hmeasure⟩ := encStep_closes_or_goes_on h
    · exact .inl hclosed
    · exact .inr (hmeasure hle)
  · obtain ⟨d, hsending⟩ := hinv.sending hp
    obtain ⟨t, ht, -, -, hphase⟩ :=
      (TxPhase.pending hsending rfl rfl).encRun_next (Nat.le_refl _)
    rw [List.drop_length] at hphase
    have hlen := length_outputLeft_le s.txState (d.drop s.sentSize.toNat)
    rw [List.length_drop] at hlen
    exact ⟨_, t, by rw [hsending.size]; omega, ht, hphase.ended_of_nil.1⟩

/-! ## The encoder and the receive side -/

section ReceiveSide
variable (s v : State)

/-- The case is chosen without the receive side: of the buffers, TXBUF alone is read (R136). -/
theorem txCase_withRxOf : txCase (s.withRxOf v) = txCase s := rfl

/-- No case sees or touches the receive side (R136). -/
theorem txAct_withRxOf (c : TxCase) :
    txAct c (s.withRxOf v) = andThen (txAct c s) fun t => .next (t.withRxOf v) := by
  cases c with
  | close | opening | escape => rfl
  | literal =>
    rw [txAct, txAct, txLiteralAct, txLiteralAct, andThen_assoc]
    rfl
  | substitute =>
    rw [txAct, txAct, txSubstituteAct, txSubstituteAct, andThen_assoc]
    rfl

end ReceiveSide

/-- Settles O26: neither the choice of the case nor the case itself sees the receive side. -/
theorem encoderIgnoresReceiveSide : Obligations.EncoderIgnoresReceiveSide := by
  intro s v
  simp only [encStep, txCase_withRxOf, txAct_withRxOf, andThen_assoc, andThen_next]

/-! ## Codec steps and rows -/

/-- The byte of a decoder row: the one its class admits, or `x` where the class admits several
(R87). -/
def rowByteOf (x : Byte) : RxClass → Byte
  | .start | .frameEnd => delim
  | .escape => esc
  | .substDelim => subDelim
  | .substEsc => subEsc
  | .ignore | .overflow | .data | .full | .badEscape => x

/-- A byte is the one its class admits. -/
theorem rowByteOf_classify (st : Framing) (full : Bool) (x : Byte) :
    rowByteOf x (classify st full x) = x := by
  cases st with
  | awaitingDelimiter =>
    rw [classify]
    split
    · exact Eq.symm ‹_›
    · rfl
  | inFrame =>
    rw [classify]
    split_ifs with hesc hdelim
    · exact hesc.symm
    · exact hdelim.symm
    · rfl
    · rfl
  | inEscape =>
    rw [classify]
    split_ifs with hdelim _ hesc
    · rfl
    · exact hdelim.symm
    · rfl
    · exact hesc.symm
    · rfl

theorem exec_ofRx (x : Byte) (c : RxClass) (s : State) :
    exec (.ofRx x c) s = runRxRow c (rowByteOf x c) s := by
  cases c <;> rfl

/-- A row's instruction keeps of a byte only what its class does not fix. -/
theorem ofRx_rowByteOf (x : Byte) (c : RxClass) : Instr.ofRx (rowByteOf x c) c = .ofRx x c := by
  cases c <;> rfl

theorem exec_ofTx (c : TxCase) (s : State) : exec (.ofTx c) s = runTxRow c s := by
  cases c <;> rfl

/-- What is no command is a row of the decoder or of the encoder. -/
theorem codec_row_of_not_command {i : Instr} (hi : i.isCommand = false) :
    (∃ x c, i = .ofRx x c) ∨ ∃ c, i = .ofTx c := by
  cases i with
  | init | teardown | send | task | crc16 | readReg | illegalCmd => cases hi
  | rxStart => exact .inl ⟨delim, .start, rfl⟩
  | rxIgnore x => exact .inl ⟨x, .ignore, rfl⟩
  | rxEscape => exact .inl ⟨esc, .escape, rfl⟩
  | rxEnd => exact .inl ⟨delim, .frameEnd, rfl⟩
  | rxOverflow x => exact .inl ⟨x, .overflow, rfl⟩
  | rxData x => exact .inl ⟨x, .data, rfl⟩
  | rxSubDelim => exact .inl ⟨subDelim, .substDelim, rfl⟩
  | rxSubEsc => exact .inl ⟨subEsc, .substEsc, rfl⟩
  | rxFull x => exact .inl ⟨x, .full, rfl⟩
  | rxBadEscape x => exact .inl ⟨x, .badEscape, rfl⟩
  | txClose => exact .inr ⟨.close, rfl⟩
  | txOpen => exact .inr ⟨.opening, rfl⟩
  | txEscape => exact .inr ⟨.escape, rfl⟩
  | txLiteral => exact .inr ⟨.literal, rfl⟩
  | txSubstitute => exact .inr ⟨.substitute, rfl⟩

/-- Settles O36: a row run by itself runs where it is the selected one, and the selected one is the
row of the byte's class or of the encoder's case. -/
theorem codecStepsAreTableRows : Obligations.CodecStepsAreTableRows := by
  refine ⟨fun s x => ?_, fun s => ?_, fun i s t hi h => ?_⟩
  · have hbyte : rowByteOf x (rxClassOf x s) = x := rowByteOf_classify _ _ _
    rw [exec_ofRx, hbyte, runRxRow, if_pos rfl, decByte]
  · unfold encStep
    cases hc : txCase s with
    | next c => simp [exec_ofTx, runTxRow, hc]
    | fault r => rfl
    | refused r => rfl
  · obtain ⟨x, c, rfl⟩ | ⟨c, rfl⟩ := codec_row_of_not_command hi
    · rw [exec_ofRx] at h
      obtain ⟨hc, -⟩ := runRxRow_eq_next.1 h
      exact .inl ⟨rowByteOf x c, by rw [hc, ofRx_rowByteOf]⟩
    · rw [exec_ofTx] at h
      exact .inr ⟨c, (runTxRow_eq_next.1 h).1, rfl⟩

/-! ## Where sent frames are counted -/

/-- What the ENC_STEPs of one unit do to the pending frame: it stays as it is, or it ends, is
counted, and its closing delimiter is the last byte returned (R135). -/
def EndsOnlyAtClose (s t : State) : Prop :=
  (t.txSize = s.txSize ∧ t.statTxFrames = s.statTxFrames)
    ∨ t.txSize = 0 ∧ t.statTxFrames = s.statTxFrames + 1
      ∧ ∃ bs, t.encOut = s.encOut ++ (bs ++ [delim])

section Counting
variable {s t : State}

/-- The ENC_STEPs of one unit stop with the closing delimiter (R193). -/
theorem encSteps_endsOnlyAtClose {more : Nat} (h : encSteps more s = .next t) :
    EndsOnlyAtClose s t := by
  induction more generalizing s with
  | zero =>
    obtain ⟨⟨u, closed⟩, hu, ht⟩ := andThen_eq_next.1 h
    cases ht
    obtain ⟨-, rfl⟩ | ⟨-, st, sent, y, rfl, -⟩ := encStep_closes_or_goes_on hu
    · exact .inr ⟨rfl, rfl, [], rfl⟩
    · exact .inl ⟨rfl, rfl⟩
  | succ more ih =>
    obtain ⟨⟨u, closed⟩, hu, ht⟩ := andThen_eq_next.1 h
    obtain ⟨rfl, rfl⟩ | ⟨rfl, st, sent, y, rfl, -⟩ := encStep_closes_or_goes_on hu
    · cases ht
      exact .inr ⟨rfl, rfl, [], rfl⟩
    · obtain hsame | ⟨hsize, hcount, bs, hbs⟩ := ih ht
      · exact .inl hsame
      · exact .inr ⟨hsize, hcount, y :: bs, by simp [hbs]⟩

@[simp] theorem sentUnits_map_deliver (ds : List (List Byte)) :
    sentUnits (ds.map .deliver) = [] := by
  induction ds with
  | nil => rfl
  | cons d ds ih => simpa [sentUnits] using ih

/-- The receive sub-step sends no unit (R190). -/
theorem rxSubStep_sentUnits (h : rxSubStep s = .next t) :
    sentUnits t.events = sentUnits s.events := by
  obtain ⟨recv, hev, hquiet, hrecv⟩ := rxSubStep_events h
  have hnone : sentUnits recv = [] := by
    cases hq : (rxReady s).1 with
    | false =>
      rw [hquiet hq]
      rfl
    | true =>
      obtain ⟨u, ds, rfl⟩ := hrecv hq
      exact sentUnits_map_deliver ds
  simp [hev, hnone, sentUnits]

/-- A transmit sub-step leaves the pending frame, or ends and counts it with a unit that ends in the
delimiter (R135). -/
theorem txSubStep_counts (h : txSubStep s = .next t) :
    (t.txSize = s.txSize ∧ t.statTxFrames = s.statTxFrames)
      ∨ s.txSize ≠ 0 ∧ t.txSize = 0 ∧ t.statTxFrames = s.statTxFrames + 1
        ∧ ∃ bs : List Byte, sentUnits t.events
            = sentUnits s.events ++ txUnits s.cfgKind s.txLinkId (bs ++ [delim]) := by
  obtain ⟨⟨-, hp⟩, ht⟩ | ⟨-, rfl⟩ := txSubStep_eq_next h
  · obtain ⟨u, hu, ht⟩ := andThen_eq_next.1 ht
    cases ht
    obtain ⟨us, -, -, hframe⟩ := encSteps_frame hu
    obtain ⟨hsize, hcount⟩ | ⟨hsize, hcount, bs, hbs⟩ := encSteps_endsOnlyAtClose hu
    · exact .inl ⟨by simpa using hsize, by simpa using hcount⟩
    · refine .inr ⟨hp, hsize, by simpa using hcount, bs, ?_⟩
      rw [txSend_events, hbs, hframe]
      simp [sentUnits]
  · exact .inl ⟨txReady_txSize s, txReady_statTxFrames s⟩

end Counting

/-- Settles O54: the transmit sub-step counts at the close, and the receive sub-step sends and
counts nothing. -/
theorem sentFramesCountedAtClose : Obligations.SentFramesCountedAtClose := by
  intro s t hl h
  obtain ⟨s1, s2, h1, h2, rfl⟩ := (execTask_live hl).1 h
  have hsent := rxSubStep_sentUnits h2
  have hsize : s2.txSize = s1.txSize := by rw [rxSubStep_frame h2]
  have hcount : s2.statTxFrames = s1.statTxFrames := by rw [rxSubStep_frame h2]
  rw [reply_txSize, reply_statTxFrames, reply_events, hsent, hsize, hcount]
  exact txSubStep_counts h1

end Sys2Proof.Machine
end

section
/-! PROOFS. Scope: decoder (spec/42). FINALIZE (O30), the drops in IN_ESCAPE (O31, O32), the round
trip of a frame (O33), the phase slip (O34), and that the decoder does not see the transmit side
(O35). `Receiving` says which bytes the decoder has unstuffed so far. -/

namespace Sys2Proof.Machine

open Sys2Proof

/-! ## DEC_BYTE, one rule for each class that is met here -/

section DecRules
variable {s u : State} {st : Framing} {x b : Byte}

/-- DEC_BYTE does what the class of its byte in the decoder's state does (R87, R150). -/
theorem decByte_of_state (hst : s.rxState = st) :
    decByte x s = rxAct (classify st (rxFull s) x) x s := by
  rw [decByte, rxClassOf, hst]

/-- A delimiter in AWAITING_DELIMITER starts a frame (R150). -/
theorem decByte_start (hst : s.rxState = .awaitingDelimiter) :
    decByte delim s = .next { s with statSof := s.statSof + 1, rxState := .inFrame, rxSize := 0 } :=
  decByte_of_state hst

/-- Any other byte there is ignored (R150). -/
theorem decByte_ignore (hst : s.rxState = .awaitingDelimiter) (hx : x ≠ delim) :
    decByte x s = .next s := by
  rw [decByte_of_state hst, classify, if_neg hx]
  rfl

/-- An escape in IN_FRAME is taken, whether RXBUF is full or not (R154). -/
theorem decByte_escape (hst : s.rxState = .inFrame) :
    decByte esc s = .next { s with rxState := .inEscape } :=
  decByte_of_state hst

/-- A delimiter in IN_FRAME runs FINALIZE and ends the frame (R150). -/
theorem decByte_end (hst : s.rxState = .inFrame) (hu : finalize s = .next u) :
    decByte delim s = .next { u with rxSize := 0, rxState := .awaitingDelimiter } :=
  (decByte_of_state hst).trans (andThen_eq_next.2 ⟨u, hu, rfl⟩)

/-- So does the row RX_END by itself (R150). -/
theorem exec_rxEnd (hst : s.rxState = .inFrame) (hu : finalize s = .next u) :
    exec .rxEnd s = .next { u with rxSize := 0, rxState := .awaitingDelimiter } :=
  runRxRow_eq_next.2 ⟨by rw [rxClassOf, hst]; rfl, andThen_eq_next.2 ⟨u, hu, rfl⟩⟩

/-- In IN_ESCAPE a byte that is no substitute drops the frame (R150). -/
theorem decByte_badEscape (hst : s.rxState = .inEscape) (hd : x ≠ subDelim) (he : x ≠ subEsc) :
    decByte x s = .next { s with rxSize := 0, rxState := .awaitingDelimiter } := by
  rw [decByte_of_state hst, classify, if_neg hd, if_neg he]
  rfl

/-- In IN_ESCAPE with RXBUF full every byte drops the frame: a substitute as FULL, any other as
BAD_ESCAPE (R154). -/
theorem decByte_full (hst : s.rxState = .inEscape) (hfull : rxFull s = true) :
    decByte x s = .next { s with rxSize := 0, rxState := .awaitingDelimiter } := by
  by_cases hsub : x = subDelim ∨ x = subEsc
  · rw [decByte_of_state hst, hfull]
    obtain rfl | rfl := hsub <;> rfl
  · obtain ⟨hd, he⟩ := not_or.1 hsub
    exact decByte_badEscape hst hd he

/-- In IN_FRAME with room left, a byte that is not reserved is stored as it is (R150). -/
theorem decByte_data (hst : s.rxState = .inFrame) (hfull : rxFull s = false)
    (hb : reserved b = false) : decByte b s = rxStore b s := by
  rw [decByte_of_state hst, hfull, classify_inFrame _ hb]
  rfl

/-- In IN_ESCAPE with room left, the substitute of a reserved byte stores that byte (R150). -/
theorem decByte_substituteOf (hst : s.rxState = .inEscape) (hfull : rxFull s = false)
    (hb : reserved b = true) : decByte (substituteOf b) s = rxSubstituteAct b s := by
  rw [decByte_of_state hst, hfull]
  obtain rfl | rfl := reserved_iff.1 hb <;> rfl

@[simp] theorem decBytes_singleton (x : Byte) (s : State) : decBytes [x] s = decByte x s :=
  andThen_next_right _

/-- In AWAITING_DELIMITER bytes without a delimiter are ignored (R155). -/
theorem decBytes_ignore (hst : s.rxState = .awaitingDelimiter) {bs : List Byte}
    (hbs : delim ∉ bs) : decBytes bs s = .next s := by
  induction bs with
  | nil => rfl
  | cons y rest ih =>
    obtain ⟨hy, hrest⟩ := not_or.1 (List.mem_cons.not.1 hbs)
    rw [decBytes_cons, decByte_ignore hst (Ne.symm hy), andThen_next, ih hrest]

end DecRules

/-- Settles O31: the delimiter is no substitute, so it drops the frame, and the bytes after it are
ignored. -/
theorem delimiterInEscapeDropsFrame : Obligations.DelimiterInEscapeDropsFrame := by
  intro s bs hst hbs
  rw [decBytes_cons, decByte_badEscape hst (by decide) (by decide), andThen_next]
  exact decBytes_ignore rfl hbs

/-- Settles O32: the escape stores nothing, so RXBUF is full for the byte after it too. -/
theorem escapeWhenFullDropsFrame : Obligations.EscapeWhenFullDropsFrame := by
  intro s x hst hsize
  have hesc := decByte_escape hst
  have hfull : rxFull { s with rxState := .inEscape } = true := rxFull_of_eq hsize
  refine ⟨hesc, ?_⟩
  rw [decBytes_cons, hesc, andThen_next, decBytes_singleton]
  exact decByte_full rfl hfull

/-! ## FINALIZE -/

section Finalize
variable {s : State} {p : List Byte} {lo hi : Byte}

/-- A frame of fewer than 3 bytes is discarded (R151). -/
theorem finalize_short (h : s.rxSize.toNat < 3) : finalize s = .next s := if_pos h

/-- FINALIZE takes the bytes of RXBUF apart into a payload and the two bytes of a CRC, and delivers
the payload where they are its CRC (R151). -/
theorem finalize_of_holds (hp : 1 ≤ p.length) (hsize : p.length + 2 = s.rxSize.toNat)
    (hcap : s.rxSize.toNat ≤ s.build.bufCap) (hold : Holds s.rxBuf (p ++ [lo, hi])) :
    finalize s = if crc16 p = fromLowHigh lo hi then
      .next { s with statRxFrames := s.statRxFrames + 1, events := s.events ++ [.deliver p] }
    else .next s := by
  have hread : ∀ {i : Nat} {v : Byte}, (p ++ [lo, hi])[i]? = some v →
      readByte .rx i s = .next v := by
    intro i v hv
    have hi : i < (p ++ [lo, hi]).length := (List.getElem?_eq_some_iff.1 hv).1
    have hlt : i < s.build.bufCap := by simp at hi; omega
    exact readByte_eq_next.2 ⟨hlt, (hold i hi).trans hv⟩
  have hpayload : readBytes .rx 0 s (s.rxSize.toNat - 2) = .next p := by
    refine readBytes_eq_next.2 ⟨by omega, fun k hk => ?_⟩
    have hkp : k < p.length := by omega
    rw [Nat.zero_add, ← List.getElem?_append_left (l₂ := [lo, hi]) hkp]
    exact ⟨by omega, hold k (by simp; omega)⟩
  have hlo : readByte .rx (s.rxSize.toNat - 2) s = .next lo := by
    rw [show s.rxSize.toNat - 2 = p.length by omega]
    exact hread (by simp)
  have hhi : readByte .rx (s.rxSize.toNat - 1) s = .next hi := by
    rw [show s.rxSize.toNat - 1 = p.length + 1 by omega]
    exact hread (by simp)
  rw [finalize, if_neg (by omega), finalizeFrame, hpayload, andThen_next, hlo, andThen_next, hhi,
    andThen_next]
  rfl

end Finalize

/-- Settles O30: what FINALIZE does with a short frame, a good one and a corrupt one, and RX_END
after it. -/
theorem finalizeChecksAndDelivers : Obligations.FinalizeChecksAndDelivers := by
  intro s
  refine ⟨fun hshort => ?_, fun p lo hi hp hsize hcap hold => ⟨fun hcrc => ?_, fun hcrc => ?_⟩⟩
  · have hfin := finalize_short hshort
    exact ⟨hfin, fun hst => exec_rxEnd hst hfin⟩
  · have hfin := (finalize_of_holds hp hsize hcap hold).trans (if_pos hcrc)
    exact ⟨hfin, fun hst => exec_rxEnd hst hfin⟩
  · have hfin := (finalize_of_holds hp hsize hcap hold).trans (if_neg hcrc)
    exact ⟨hfin, fun hst => exec_rxEnd hst hfin⟩

/-! ## The round trip -/

/-- A byte written after the bytes a memory holds is held with them. -/
theorem Holds.write_end {m : Memory} {d : List Byte} (h : Holds m d) (b : Byte) :
    Holds (m.write d.length b) (d ++ [b]) := by
  intro i hi
  rw [Memory.read_write]
  split
  · rename_i he
    simp [he]
  · have hlt : i < d.length := by simp at hi; omega
    rw [h i hlt, List.getElem?_append_left hlt]

/-- The decoder is in IN_FRAME and has unstuffed the bytes `d` of the frame so far. -/
structure Receiving (d : List Byte) (s : State) : Prop where
  state : s.rxState = .inFrame
  size : s.rxSize.toNat = d.length
  stored : Holds s.rxBuf d

/-- `s` with what the decoder changes inside a frame taken from `v`. -/
def State.withRxBytesOf (s v : State) : State := { s with rxBuf := v.rxBuf, rxSize := v.rxSize }

/-- RXBUF exists up to N + 2, and its indices fit RX_SIZE (R8, R22). -/
def RxCapacity (s : State) : Prop := s.cfgN.toNat + 2 ≤ s.build.bufCap ∧ s.build.bufCap < 2 ^ 16

section RoundTrip
variable {s : State} {p d e : List Byte} {b : Byte}

/-- The state after one more byte is stored has received that byte too. -/
theorem Receiving.store (h : Receiving d s) (hcap : RxCapacity s)
    (hroom : d.length < s.cfgN.toNat + 2) :
    Receiving (d ++ [b])
      { s with rxBuf := s.rxBuf.write s.rxSize.toNat b, rxSize := s.rxSize + 1 } where
  state := h.state
  size := by
    obtain ⟨hbuf, hmax⟩ := hcap
    have hsize := h.size
    change (s.rxSize + 1).toNat = (d ++ [b]).length
    rw [List.length_append, List.length_singleton]
    bv_omega
  stored := h.size ▸ h.stored.write_end b

/-- The stuffing of one byte, escaped or not, stores that byte (R83, R150). -/
theorem Receiving.decBytes_stuffByte (h : Receiving d s) (hcap : RxCapacity s)
    (hroom : d.length < s.cfgN.toNat + 2) (b : Byte) :
    decBytes (stuffByte b) s
      = .next { s with rxBuf := s.rxBuf.write s.rxSize.toNat b, rxSize := s.rxSize + 1 } := by
  have hlt : s.rxSize.toNat < s.cfgN.toNat + 2 := h.size ▸ hroom
  have hbuf : s.rxSize.toNat < s.build.bufCap := Nat.lt_of_lt_of_le hlt hcap.1
  have hfull := rxFull_of_lt hlt
  cases hb : reserved b with
  | false =>
    rw [stuffByte, hb, if_neg Bool.false_ne_true, decBytes_singleton, decByte_data h.state hfull hb]
    exact rxStore_eq_next.2 ⟨hbuf, rfl⟩
  | true =>
    have hsub := (decByte_substituteOf (s := { s with rxState := .inEscape }) rfl hfull hb).trans
      (rxSubstituteAct_of_lt hbuf)
    rw [stuffByte, hb, if_pos rfl, decBytes_cons, decByte_escape h.state, andThen_next,
      decBytes_singleton, hsub, ← h.state]

/-- A stuffed body is unstuffed into RXBUF, where there is room for it (R159). -/
theorem Receiving.decBytes_stuff (h : Receiving d s) (hcap : RxCapacity s)
    (hroom : d.length + e.length ≤ s.cfgN.toNat + 2) :
    ∃ t, decBytes (stuff e) s = .next t ∧ t = s.withRxBytesOf t ∧ Receiving (d ++ e) t := by
  induction e generalizing d s with
  | nil => exact ⟨s, rfl, rfl, by rwa [List.append_nil]⟩
  | cons b rest ih =>
    rw [List.length_cons] at hroom
    have hlt : d.length < s.cfgN.toNat + 2 := by omega
    obtain ⟨t, ht, hframe, hrecv⟩ := ih (h.store (b := b) hcap hlt) hcap (by simp; omega)
    refine ⟨t, ?_, hframe, by simpa using hrecv⟩
    rw [stuff, decBytes_append, h.decBytes_stuffByte hcap hlt, andThen_next, ht]

/-- A received payload with its CRC is delivered by the closing delimiter (R151). -/
theorem Receiving.decByte_end (h : Receiving (withCrc p) s) (hp : 1 ≤ p.length)
    (hcap : p.length + 2 ≤ s.build.bufCap) :
    decByte delim s = .next { s with
      statRxFrames := s.statRxFrames + 1
      events := s.events ++ [.deliver p]
      rxSize := 0
      rxState := .awaitingDelimiter } := by
  have hsize : p.length + 2 = s.rxSize.toNat := by rw [h.size, length_withCrc]
  have hcrc : crc16 p = fromLowHigh ((crc16 p).setWidth 8) ((crc16 p >>> 8).setWidth 8) :=
    (fromLowHigh_of_halves _).symm
  have hfin := (finalize_of_holds hp hsize (hsize ▸ hcap) h.stored).trans (if_pos hcrc)
  exact Machine.decByte_end h.state hfin

end RoundTrip

/-- Settles O33: the opening delimiter starts with nothing received, the body is unstuffed to the
payload and its CRC, and the closing delimiter delivers the payload. -/
theorem decoderDeliversFrame : Obligations.DecoderDeliversFrame := by
  intro s p hst hr
  obtain ⟨hp, hfits, hcap, hmax⟩ := hr
  have hstart := decByte_start hst
  have hrecv : Receiving []
      { s with statSof := s.statSof + 1, rxState := .inFrame, rxSize := 0 } := ⟨rfl, rfl, nofun⟩
  obtain ⟨t, ht, hframe, hrecv'⟩ := hrecv.decBytes_stuff (e := withCrc p) ⟨hcap, hmax⟩ (by simpa)
  have hbuf : p.length + 2 ≤ t.build.bufCap := by
    rw [hframe]
    exact Nat.le_trans (Nat.add_le_add_right hfits 2) hcap
  have hend := hrecv'.decByte_end hp hbuf
  have hrun : decBytes (frame p) s = decByte delim t := by
    rw [frame, decBytes_cons, hstart, andThen_next, decBytes_append, ht, andThen_next,
      decBytes_singleton]
  refine ⟨_, hrun.trans hend, ?_⟩
  rw [hframe, hst]
  rfl

/-! ## The phase slip -/

section PhaseSlip
variable {s : State}

/-- Out of phase, the rest of a frame after its first delimiter is ignored up to the closing
delimiter, which starts an empty frame (R158). -/
theorem decBytes_rest_of_frame (hst : s.rxState = .awaitingDelimiter) (p : List Byte) :
    decBytes (stuff (withCrc p) ++ [delim]) s
      = .next { s with statSof := s.statSof + 1, rxState := .inFrame, rxSize := 0 } := by
  rw [decBytes_append, decBytes_ignore hst (delim_not_mem_stuff _), andThen_next,
    decBytes_singleton, decByte_start hst]

/-- A frame that arrives in an empty one ends it and starts another: all it does is to count a start
of frame (R158, R160). -/
theorem decBytes_frame_of_empty (hst : s.rxState = .inFrame) (hsize : s.rxSize = 0)
    (p : List Byte) : decBytes (frame p) s = .next { s with statSof := s.statSof + 1 } := by
  have hshort : s.rxSize.toNat < 3 := by rw [hsize]; decide
  rw [frame, decBytes_cons, decByte_end hst (finalize_short hshort), andThen_next,
    decBytes_rest_of_frame rfl, ← hst, ← hsize]

/-- So does every frame of a stream (R158, R160). -/
theorem decBytes_frames_of_empty (hst : s.rxState = .inFrame) (hsize : s.rxSize = 0)
    (ps : List (List Byte)) :
    decBytes (ps.flatMap frame) s
      = .next { s with statSof := s.statSof + BitVec.ofNat 32 ps.length } := by
  induction ps generalizing s with
  | nil => simp
  | cons p rest ih =>
    have hrest := ih (s := { s with statSof := s.statSof + 1 }) hst hsize
    have hcount : s.statSof + BitVec.ofNat 32 (p :: rest).length
        = s.statSof + 1 + BitVec.ofNat 32 rest.length := by
      rw [List.length_cons, Nat.add_comm, BitVec.ofNat_add, ← BitVec.add_assoc]
      rfl
    rw [List.flatMap_cons, decBytes_append, decBytes_frame_of_empty hst hsize, andThen_next, hcount]
    exact hrest

/-- Inside a frame a good state is live: a core that is not live awaits a delimiter (R58). -/
theorem Inv.live_of_inside (h : Inv s) (hst : s.rxState ≠ .awaitingDelimiter) : s.live = true := by
  cases hl : s.live with
  | true => rfl
  | false => exact absurd (h.notLive hl ▸ cleared_rxState s) hst

/-- In a good state inside a frame, a delimiter ends the frame: through FINALIZE in IN_FRAME, as a
drop in IN_ESCAPE (R150). -/
theorem Inv.decByte_delim_inside (h : Inv s) (hst : s.rxState ≠ .awaitingDelimiter) :
    ∃ u, decByte delim s = .next u ∧ u.rxState = .awaitingDelimiter := by
  cases hs : s.rxState with
  | awaitingDelimiter => exact absurd hs hst
  | inFrame =>
    obtain ⟨u, hu⟩ := (h.taskInv (h.live_of_inside hst)).finalize_next
    exact ⟨_, decByte_end hs hu, rfl⟩
  | inEscape => exact ⟨_, decByte_badEscape hs (by decide) (by decide), rfl⟩

end PhaseSlip

/-- Settles O34: the first delimiter ends the partial frame, the rest of the first frame starts an
empty one, and every further frame is lost in an empty one. -/
theorem framesOutOfPhaseAreLost : Obligations.FramesOutOfPhaseAreLost := by
  intro s p ps h hst
  obtain ⟨u, hu, hawait⟩ := h.decByte_delim_inside hst
  have hfirst := decBytes_rest_of_frame hawait p
  have hlost := decBytes_frames_of_empty
    (s := { u with statSof := u.statSof + 1, rxState := .inFrame, rxSize := 0 }) rfl rfl ps
  refine ⟨u, _, hu, .trans ?_ hlost, rfl, rfl, rfl, rfl⟩
  rw [List.flatMap_cons, frame, List.cons_append, decBytes_cons, hu, andThen_next, decBytes_append,
    hfirst, andThen_next]

/-! ## The decoder and the transmit side -/

section TransmitSide
variable (s v : State)

/-- The bytes of RXBUF are read without the transmit side (R162). -/
theorem readByte_rx_withTxOf (i : Nat) : readByte .rx i (s.withTxOf v) = readByte .rx i s := rfl

theorem readBytes_rx_withTxOf (i count : Nat) :
    readBytes .rx i (s.withTxOf v) count = readBytes .rx i s count := by
  induction count generalizing i with
  | zero => rfl
  | succ count ih => simp only [readBytes, readByte_rx_withTxOf, ih]

/-- FINALIZE does not see or touch the transmit side (R162). -/
theorem finalize_withTxOf :
    finalize (s.withTxOf v) = andThen (finalize s) fun t => .next (t.withTxOf v) := by
  by_cases hshort : s.rxSize.toNat < 3
  · rw [finalize_short hshort, andThen_next]
    exact finalize_short hshort
  · have hlong : ¬(s.withTxOf v).rxSize.toNat < 3 := hshort
    rw [finalize, if_neg hlong, finalize, if_neg hshort]
    simp only [finalizeFrame, readBytes_rx_withTxOf, readByte_rx_withTxOf, andThen_assoc]
    refine congrArg _ (funext fun p => congrArg _ (funext fun lo => congrArg _ (funext fun hi => ?_)))
    split_ifs <;> rfl

/-- A byte is stored in RXBUF without the transmit side (R162). -/
theorem rxStore_withTxOf (b : Byte) :
    rxStore b (s.withTxOf v) = andThen (rxStore b s) fun t => .next (t.withTxOf v) := by
  by_cases hlt : s.rxSize.toNat < s.build.bufCap
  · rw [rxStore_eq_next.2 ⟨hlt, rfl⟩, andThen_next]
    exact rxStore_eq_next.2 ⟨hlt, rfl⟩
  · rw [rxStore, rxStore, writeByte, writeByte, if_neg hlt]
    exact congrArg (andThen · _) (if_neg hlt)

/-- A substitute's literal is, too (R162). -/
theorem rxSubstituteAct_withTxOf (b : Byte) :
    rxSubstituteAct b (s.withTxOf v)
      = andThen (rxSubstituteAct b s) fun t => .next (t.withTxOf v) := by
  rw [rxSubstituteAct, rxSubstituteAct, rxStore_withTxOf, andThen_assoc, andThen_assoc]
  rfl

/-- No class sees or touches the transmit side (R162). -/
theorem rxAct_withTxOf (c : RxClass) (x : Byte) :
    rxAct c x (s.withTxOf v) = andThen (rxAct c x s) fun t => .next (t.withTxOf v) := by
  cases c with
  | start | ignore | escape | overflow | full | badEscape => rfl
  | frameEnd =>
    rw [rxAct, rxAct, rxEndAct, rxEndAct, finalize_withTxOf, andThen_assoc, andThen_assoc]
    rfl
  | data => exact rxStore_withTxOf s v x
  | substDelim | substEsc => exact rxSubstituteAct_withTxOf s v _

end TransmitSide

/-- Settles O35: the class of the byte is chosen by the receive side, and no class sees the transmit
side. -/
theorem decoderIgnoresTransmitSide : Obligations.DecoderIgnoresTransmitSide :=
  fun s v x => ⟨rxAct_withTxOf s v (rxClassOf x s) x, finalize_withTxOf s v⟩

end Sys2Proof.Machine
end

section
/-! PROOFS. Scope: SEND (spec/43). Its statuses and what an accepted payload writes (O16), and that
a SEND that fails only replies (O17). -/

namespace Sys2Proof.Machine

open Sys2Proof

section SendRules
variable {s : State} {linkId : LinkId} {p : List Byte}

/-- A core that is not live refuses every payload (R180). -/
theorem sendStatus_of_not_live (hl : s.live = false) : sendStatus s p = .notLive := if_pos hl

/-- A live core refuses a payload that is too long or empty, and any while a frame is pending
(R180, R182, R184). -/
theorem sendStatus_of_rejected (hl : s.live = true)
    (h : s.cfgN.toNat < p.length ∨ p.length = 0 ∨ s.txSize ≠ 0) :
    sendStatus s p = .txOverflow := by
  have hlive : ¬s.live = false := by simp [hl]
  rw [sendStatus, if_neg hlive]
  split_ifs with hlong hempty hpending
  · rfl
  · rfl
  · rfl
  · exact absurd h (not_or.2 ⟨hlong, not_or.2 ⟨hempty, hpending⟩⟩)

/-- A SEND that fails answers its status and nothing else (R180, R181). -/
theorem exec_send_of_status_ne_ok {st : Status} (hst : sendStatus s p = st) (hne : st ≠ .ok) :
    exec (.send linkId p) s = .next (s.reply st 0) := by
  subst hst
  obtain ⟨hok, -⟩ | ⟨-, he⟩ := execSend_cases linkId p s
  · exact absurd hok hne
  · exact he

/-- A SEND that succeeds loads its payload and answers OK (R180). -/
theorem exec_send_of_status_ok (hok : sendStatus s p = .ok) :
    exec (.send linkId p) s
      = andThen (loadPayload linkId p s) fun u => .next (u.reply .ok 0) := by
  obtain ⟨-, he⟩ | ⟨hne, -⟩ := execSend_cases linkId p s
  · exact he
  · exact absurd hok hne

end SendRules

/-- Settles O16: the first failing test gives the status; a payload that passes them all fits TXBUF
with its CRC, is loaded, and its length fits TX_SIZE. -/
theorem sendFollowsPseudocode : Obligations.SendFollowsPseudocode := by
  intro s linkId p
  refine ⟨fun hl => ?_, fun hl hrejected => ?_, fun hl hb hcap hp hfits hfree => ?_⟩
  · exact exec_send_of_status_ne_ok (sendStatus_of_not_live hl) (by decide)
  · exact exec_send_of_status_ne_ok (sendStatus_of_rejected hl hrejected) (by decide)
  · have hok : sendStatus s p = .ok := sendStatus_ok.2 ⟨hl, hfits, Nat.ne_of_gt hp, hfree⟩
    have hmax : s.build.bufCap < 2 ^ 16 := hb.2.1
    have hsize : (BitVec.ofNat 16 (p.length + 2)).toNat = p.length + 2 := by
      rw [BitVec.toNat_ofNat]
      omega
    obtain ⟨u, hu⟩ := loadPayload_next (s := s) linkId (payload := p) (by omega)
    obtain ⟨m, rfl, hstored, hkept, -⟩ := loadPayload_eq_next hu
    refine ⟨_, (exec_send_of_status_ok hok).trans (andThen_eq_next.2 ⟨_, hu, rfl⟩), rfl, hsize,
      fun i hi => hstored i ?_, hkept⟩
    rwa [length_withCrc]

/-- Settles O17: a SEND that loads its payload answers OK, so one that does not answer OK only
replies. -/
theorem failedSendMutatesNothing : Obligations.FailedSendMutatesNothing := by
  intro s t linkId p h hfailed
  obtain ⟨st, rfl⟩ | ⟨-, u, hu, rfl⟩ := execSend_eq_next h
  · refine ⟨st, fun hst => hfailed ?_, rfl⟩
    rw [reply_replies, hst]
  · obtain ⟨m, rfl, -⟩ := loadPayload_eq_next hu
    exact absurd rfl hfailed

end Sys2Proof.Machine
end

section
/-! PROOFS. Scope: the scheduler (spec/44). That a TASK refuses or completes (O37, O38, O39); what
its transmit sub-step does to the pending frame and its receive sub-step to a listed unit, from
which a TASK that transmits (O42, O43), receives (O44, O45) or does both (O46, O47) is assembled;
and that SEND commutes with the receive sub-step (O51). -/

namespace Sys2Proof.Machine

open Sys2Proof

/-- Settles O37: TASK tests LIVE first. -/
theorem taskRefusedWhileNotLive : Obligations.TaskRefusedWhileNotLive := fun _ hl => if_pos hl

/-! ## Both sub-steps -/

/-- Settles O39: TASK answers, so both of its sub-steps do, and each stays inside its frame. -/
theorem taskRunsBothSubSteps : Obligations.TaskRunsBothSubSteps := by
  intro s h hl hu
  obtain ⟨t, ht⟩ := execTask_next h hu
  obtain ⟨s1, s2, h1, h2, rfl⟩ := (execTask_live hl).1 ht
  exact ⟨s1, s2, h1, h2, ht, by rw [(txSubStep_frame h1).1]; rfl, by rw [rxSubStep_frame h2]; rfl⟩

/-- Settles O38: neither sub-step touches the answers given before. -/
theorem liveTaskCompletes : Obligations.LiveTaskCompletes := by
  intro s h hl hu
  obtain ⟨s1, s2, h1, h2, ht, -, -⟩ := taskRunsBothSubSteps s h hl hu
  refine ⟨_, ht, ?_⟩
  rw [reply_replies, rxSubStep_frame h2, (txSubStep_frame h1).1]

/-! ## The encoder and the query before it -/

/-- `s` with what `tx_ready` changes taken from `v` (R43). -/
def State.withTxQueryOf (s v : State) : State :=
  { s with txReadyIn := v.txReadyIn, draws := v.draws, events := v.events }

section Query
variable {s u : State} (v : State)

theorem txReady_withTxQueryOf (s : State) : (txReady s).2 = s.withTxQueryOf (txReady s).2 := by
  unfold txReady
  split <;> rfl

/-- No case of an ENC_STEP sees the query. -/
theorem txAct_withTxQueryOf {c : TxCase} (h : txAct c s = .next u) :
    txAct c (s.withTxQueryOf v) = .next (u.withTxQueryOf v) := by
  cases c with
  | close | opening | escape => cases h; rfl
  | literal | substitute =>
    obtain ⟨b, hb, hu⟩ := andThen_eq_next.1 h
    cases hu
    exact andThen_eq_next.2 ⟨b, hb, rfl⟩

theorem encStep_withTxQueryOf {closed : Bool} (h : encStep s = .next (u, closed)) :
    encStep (s.withTxQueryOf v) = .next (u.withTxQueryOf v, closed) := by
  obtain ⟨c, hc, hu, hclosed⟩ := encStep_eq_next.1 h
  exact encStep_eq_next.2 ⟨c, hc, txAct_withTxQueryOf v hu, hclosed⟩

/-- Nor do the ENC_STEPs of one unit. -/
theorem encSteps_withTxQueryOf {more : Nat} (h : encSteps more s = .next u) :
    encSteps more (s.withTxQueryOf v) = .next (u.withTxQueryOf v) := by
  induction more generalizing s with
  | zero =>
    obtain ⟨⟨t, closed⟩, ht, hu⟩ := andThen_eq_next.1 h
    cases hu
    exact andThen_eq_next.2 ⟨_, encStep_withTxQueryOf v ht, rfl⟩
  | succ more ih =>
    obtain ⟨⟨t, closed⟩, ht, hu⟩ := andThen_eq_next.1 h
    refine andThen_eq_next.2 ⟨_, encStep_withTxQueryOf v ht, ?_⟩
    cases closed with
    | true => cases hu; rfl
    | false => exact ih hu

end Query

/-! ## The ENC_STEPs of one unit -/

/-- `k` ENC_STEPs lead from `s` to `u`: `limit` of them, or as many as the frame has left, and no
further ones (R193). -/
structure RunsUnit (limit k : Nat) (s u : State) : Prop where
  pos : 1 ≤ k
  le : k ≤ limit
  run : encRun k s = .next u
  returned : u.encOut.length = s.encOut.length + k
  stopped : k = limit ∨ u.txSize = 0
  pending : ∀ j v, j < k → encRun j s = .next v → v.txSize ≠ 0

section Unit
variable {s t u : State} {limit k more : Nat} {closed : Bool}

/-- An ENC_STEP that answers has a frame pending (R130, R191). -/
theorem txSize_ne_zero_of_encStep (h : encStep s = .next (t, closed)) : s.txSize ≠ 0 := by
  obtain ⟨c, hc, -⟩ := encStep_eq_next.1 h
  exact (txCase_eq_next hc).1

/-- An ENC_STEP returns one byte. -/
theorem length_encOut_of_encStep (h : encStep s = .next (t, closed)) :
    t.encOut.length = s.encOut.length + 1 := by
  obtain ⟨y, hy⟩ := oneByteEachEncStep s t closed h
  simp [hy]

/-- A unit of one ENC_STEP: no more are allowed, or it ended the frame. -/
theorem RunsUnit.one (h : encStep s = .next (t, closed)) (hlimit : 1 ≤ limit)
    (hstop : 1 = limit ∨ t.txSize = 0) : RunsUnit limit 1 s t where
  pos := Nat.le_refl _
  le := hlimit
  run := andThen_eq_next.2 ⟨_, h, rfl⟩
  returned := length_encOut_of_encStep h
  stopped := hstop
  pending := fun j v hj hv => by
    obtain rfl : j = 0 := by omega
    cases hv
    exact txSize_ne_zero_of_encStep h

/-- One ENC_STEP more before a unit. -/
theorem RunsUnit.cons (h : encStep s = .next (t, closed)) (hrest : RunsUnit limit k t u) :
    RunsUnit (limit + 1) (k + 1) s u where
  pos := Nat.le_add_left _ _
  le := Nat.succ_le_succ hrest.le
  run := andThen_eq_next.2 ⟨_, h, hrest.run⟩
  returned := by
    rw [hrest.returned, length_encOut_of_encStep h]
    omega
  stopped := hrest.stopped.imp_left (congrArg (· + 1))
  pending := fun j v hj hv => by
    cases j with
    | zero =>
      cases hv
      exact txSize_ne_zero_of_encStep h
    | succ j =>
      rw [encRun_succ, h, andThen_next] at hv
      exact hrest.pending j v (Nat.lt_of_succ_lt_succ hj) hv

/-- The ENC_STEPs of one unit stop at their bound, or at the frame's end (R193). -/
theorem encSteps_runsUnit (h : encSteps more s = .next u) : ∃ k, RunsUnit (more + 1) k s u := by
  induction more generalizing s with
  | zero =>
    obtain ⟨⟨t, closed⟩, ht, hu⟩ := andThen_eq_next.1 h
    cases hu
    exact ⟨1, .one ht (Nat.le_refl _) (.inl rfl)⟩
  | succ more ih =>
    obtain ⟨⟨t, closed⟩, ht, hu⟩ := andThen_eq_next.1 h
    cases closed with
    | true =>
      cases hu
      obtain ⟨-, rfl⟩ | ⟨hopen, -⟩ := encStep_closes_or_goes_on ht
      · exact ⟨1, .one ht (Nat.le_add_left _ _) (.inr rfl)⟩
      · cases hopen
    | false =>
      obtain ⟨k, hk⟩ := ih hu
      exact ⟨k + 1, .cons ht hk⟩

/-- A unit of a STREAM link is one ENC_STEP: the row that the state selects, and its byte (R192). -/
theorem encSteps_stream (hk : s.cfgKind = .stream) (ho : s.encOut = [])
    (h : encSteps (moreSteps s) s = .next u) :
    ∃ c y, txCase s = .next c ∧ exec (.ofTx c) s = .next u ∧ u.encOut = [y] := by
  rw [moreSteps, hk] at h
  obtain ⟨⟨t, closed⟩, ht, hu⟩ := andThen_eq_next.1 h
  cases hu
  obtain ⟨c, hc, ha, -⟩ := encStep_eq_next.1 ht
  obtain ⟨y, hy⟩ := oneByteEachEncStep s t closed ht
  exact ⟨c, y, hc, (exec_ofTx c s).trans (runTxRow_eq_next.2 ⟨hc, ha⟩), by rw [hy, ho]; rfl⟩

/-- A unit of a live MESSAGE link has at most CHUNK bytes, one for each ENC_STEP (R193). -/
theorem Inv.encSteps_message (h : Inv s) (hl : s.live = true) (hk : s.cfgKind = .message)
    (hu : encSteps (moreSteps s) s = .next u) :
    ∃ k, RunsUnit s.cfgChunk.toNat k s u ∧ u.encOut.length = k := by
  obtain ⟨k, hunit⟩ := encSteps_runsUnit hu
  have hlimit : moreSteps s + 1 = s.cfgChunk.toNat := unitSize_message hk (h.chunk hl hk)
  have hlen : u.encOut.length = k := by simpa [h.noOutput] using hunit.returned
  exact ⟨k, hlimit ▸ hunit, hlen⟩

/-- The ENC_STEPs of one unit stay inside the encoder. -/
theorem encSteps_withEncoderOf (h : encSteps more s = .next u) : u = s.withEncoderOf u := by
  obtain ⟨us, -, -, hframe⟩ := encSteps_frame h
  rw [hframe]
  rfl

end Unit

/-! ## The transmit sub-step -/

/-- What a transmit sub-step leaves that answered true and sent the output of the ENC_STEPs from `s`
to `u` (R190). -/
def State.afterSending (s u : State) (txs : List Bool) : State :=
  { u with
    encOut := []
    txReadyIn := txs
    events := s.events ++ [.txReady true] ++ (txUnits s.cfgKind s.txLinkId u.encOut).map .txSend }

section Transmit
variable {s u : State} {txs : List Bool}

/-- Transmitting after the query hands the output of the ENC_STEPs of one unit to `tx_send`
(R190). -/
theorem transmit_withTxQueryOf (v : State) (ho : s.encOut = [])
    (hu : encSteps (moreSteps s) s = .next u) :
    transmit (s.withTxQueryOf v) = .next (txSend (u.withTxQueryOf v)) := by
  have hs : { s.withTxQueryOf v with encOut := [] } = s.withTxQueryOf v := by rw [← ho]; rfl
  have hmore : moreSteps (s.withTxQueryOf v) = moreSteps s := rfl
  rw [transmit, hs, hmore, encSteps_withTxQueryOf v hu, andThen_next]

/-- Where `tx_ready` answers true and a frame is pending, the transmit sub-step sends one unit
(R190, R192, R193). -/
theorem txSubStep_of_ready (hq : (txReady s).1 = true) (hp : s.txSize ≠ 0) (ho : s.encOut = [])
    (hu : encSteps (moreSteps s) s = .next u) :
    txSubStep s = .next (txSend (u.withTxQueryOf (txReady s).2)) := by
  have hsend := transmit_withTxQueryOf (txReady s).2 ho hu
  rw [← txReady_withTxQueryOf] at hsend
  rw [← hsend]
  exact if_pos ⟨hq, by rwa [txReady_txSize]⟩

/-- From a good live state with a frame pending and `tx_ready` true, the transmit sub-step answers
and sends one unit. -/
theorem Inv.txSubStep_sends (h : Inv s) (hl : s.live = true) (hp : s.txSize ≠ 0)
    (htx : s.txReadyIn = true :: txs) :
    ∃ u, encSteps (moreSteps s) s = .next u ∧ txSubStep s = .next (s.afterSending u txs) := by
  obtain ⟨u, hu, -⟩ := (h.taskInv hl).encSteps_next hp (moreSteps s)
  refine ⟨u, hu, ?_⟩
  rw [txSubStep_of_ready (by rw [txReady_cons htx]) hp h.noOutput hu, txReady_cons htx,
    encSteps_withEncoderOf hu]
  rfl

end Transmit

/-! ## TASK, by what its two sub-steps do -/

section TaskCases
variable {s s1 : State} {u : LinkUnit} {rxs : List Bool} {units : List LinkUnit}

/-- The receive sub-step takes a listed unit that keeps the contract, and decodes the bytes of it
that pass the filter (R194, R195). -/
theorem rxSubStep_of_unit (hrx : s.rxReadyIn = true :: rxs) (hin : s.rxIn = u :: units)
    (hc : unitInContract s u = true) :
    rxSubStep s = decBytes (decodedBytes s u) { s with
      rxReadyIn := rxs
      rxIn := units
      events := s.events ++ [.rxReady true, .rxRecv u] } := by
  have hc' : unitInContract (rxReady s).2 u = true := by
    rw [rxReady_cons hrx]
    cases u <;> exact hc
  rw [rxSubStep_of_ready (by rw [rxReady_cons hrx]),
    rxRecv_cons ((rxReady_rxIn s).trans hin) hc', andThen_next, rxReady_cons hrx,
    List.append_assoc]
  cases u <;> rfl

/-- Where `rx_ready` answers false, the query alone follows the transmit sub-step (R197). -/
theorem task_of_no_unit (hl : s.live = true) (h1 : txSubStep s = .next s1)
    (hrx : s.rxReadyIn = false :: rxs) :
    exec .task s = .next ({ s1 with
      rxReadyIn := rxs, events := s1.events ++ [Event.rxReady false] }.reply .ok 0) := by
  have hrx1 : s1.rxReadyIn = false :: rxs := by rw [(txSubStep_frame h1).1]; exact hrx
  exact (execTask_live hl).2 ⟨s1, _, h1, rxSubStep_of_no_unit hrx1, rfl⟩

/-- Where `rx_ready` answers true, the listed unit is decoded from the state that the transmit
sub-step leaves (R196). -/
theorem Inv.task_of_unit (h : Inv s) (hl : s.live = true) (h1 : txSubStep s = .next s1)
    (hrx : s.rxReadyIn = true :: rxs) (hin : s.rxIn = u :: units)
    (hc : unitInContract s u = true) :
    ∃ v, decBytes (decodedBytes s u) { s1 with
          rxReadyIn := rxs
          rxIn := units
          events := s1.events ++ [.rxReady true, .rxRecv u] } = .next v
      ∧ exec .task s = .next (v.reply .ok 0) := by
  have hframe := (txSubStep_frame h1).1
  have hrx1 : s1.rxReadyIn = true :: rxs := by rw [hframe]; exact hrx
  have hin1 : s1.rxIn = u :: units := by rw [hframe]; exact hin
  have hc1 : unitInContract s1 u = true := by rw [hframe]; cases u <;> exact hc
  have hbytes : decodedBytes s1 u = decodedBytes s u := by rw [hframe]; cases u <;> rfl
  have hinv := ((h.taskInv hl).afterTxSubStep h1).of_records (t := { s1 with
    rxReadyIn := rxs
    rxIn := units
    events := s1.events ++ [.rxReady true, .rxRecv u] }) rfl
  obtain ⟨v, hv, -⟩ := hinv.decBytes_next (decodedBytes s u)
  have h2 := rxSubStep_of_unit hrx1 hin1 hc1
  rw [hbytes, hv] at h2
  exact ⟨v, hv, (execTask_live hl).2 ⟨s1, v, h1, h2, rfl⟩⟩

/-- Every byte keeps the contract of a STREAM link (R89). -/
theorem unitInContract_byte (hk : s.cfgKind = .stream) (x : Byte) :
    unitInContract s (.byte x) = true := by
  simp [unitInContract, hk]

/-- A unit of a MESSAGE link keeps its contract with an identifier of LINKID_W bits and at most
CHUNK bytes (R90, R252). -/
theorem unitInContract_message (hk : s.cfgKind = .message) {id : LinkId} {bs : List Byte}
    (hid : id < 2 ^ s.build.linkIdW) (hlen : bs.length ≤ s.cfgChunk.toNat) :
    unitInContract s (.message id bs) = true := by
  simp [unitInContract, hk, fitsWidth_iff.2 hid, hlen]

end TaskCases

/-! ## TASKs that transmit -/

/-- A TASK with a frame pending, `tx_ready` true and `rx_ready` false runs the ENC_STEPs of one unit
and hands their output to `tx_send`, between the two queries (R190). -/
theorem Inv.task_sends {s : State} {txs rxs : List Bool} (h : Inv s) (hl : s.live = true)
    (hp : s.txSize ≠ 0) (htx : s.txReadyIn = true :: txs) (hrx : s.rxReadyIn = false :: rxs) :
    ∃ u, encSteps (moreSteps s) s = .next u
      ∧ exec .task s = .next { u with
          encOut := []
          txReadyIn := txs
          rxReadyIn := rxs
          events := s.events ++ [.txReady true]
            ++ (txUnits s.cfgKind s.txLinkId u.encOut).map .txSend ++ [.rxReady false]
          replies := s.replies ++ [{ status := .ok, value := 0 }] } := by
  obtain ⟨u, hu, h1⟩ := h.txSubStep_sends hl hp htx
  have hreplies : u.replies = s.replies := by rw [encSteps_withEncoderOf hu]; rfl
  refine ⟨u, hu, (task_of_no_unit hl h1 hrx).trans ?_⟩
  rw [← hreplies]
  rfl

/-- Settles O42: the ENC_STEPs of a STREAM unit are one row, and its byte is the unit. -/
theorem streamTaskTransmitsOneByte : Obligations.StreamTaskTransmitsOneByte := by
  intro s txs rxs h hl hk hp htx hrx
  obtain ⟨u, hu, ht⟩ := h.task_sends hl hp htx hrx
  obtain ⟨c, y, hc, hrow, hy⟩ := encSteps_stream hk h.noOutput hu
  exact ⟨c, u, y, hc, hrow, hy, by simpa [hk, hy, txUnits] using ht⟩

/-- Settles O43: the ENC_STEPs of a MESSAGE unit stop at CHUNK bytes or at the frame's end, and
their bytes are one unit. -/
theorem messageTaskTransmitsOneUnit : Obligations.MessageTaskTransmitsOneUnit := by
  intro s txs rxs h hl hk hp htx hrx
  obtain ⟨u, hu, ht⟩ := h.task_sends hl hp htx hrx
  obtain ⟨k, hunit, hcount⟩ := h.encSteps_message hl hk hu
  exact ⟨k, u, hunit.pos, hunit.le, hunit.run, hcount, hunit.stopped, hunit.pending,
    by simpa [hk, txUnits] using ht⟩

/-! ## TASKs that receive -/

/-- Settles O44: the transmit sub-step is its query, and the bytes decoded are the one received. -/
theorem streamTaskReceivesOneByte : Obligations.StreamTaskReceivesOneByte := by
  intro s x txs rxs units h hl hk htx hrx hin
  obtain ⟨v, hv, ht⟩ := h.task_of_unit hl (txSubStep_of_idle htx (.inl rfl)) hrx hin
    (unitInContract_byte hk x)
  rw [decodedBytes, decBytes_singleton] at hv
  exact ⟨v, by simpa using hv, ht⟩

/-- Settles O45: the transmit sub-step is its query, and the filter passes all bytes of the unit or
none. -/
theorem messageTaskFiltersUnits : Obligations.MessageTaskFiltersUnits := by
  intro s id bs txs rxs units h hl hk hid hlen htx hrx hin
  obtain ⟨v, hv, ht⟩ := h.task_of_unit hl (txSubStep_of_idle htx (.inl rfl)) hrx hin
    (unitInContract_message hk hid hlen)
  refine ⟨fun hne => ?_, fun heq => ⟨v, by simpa [decodedBytes, heq] using hv, ht⟩⟩
  rw [decodedBytes, if_neg hne] at hv
  cases hv
  simpa [State.reply] using ht

/-! ## TASKs that do both -/

/-- Settles O46: the unit sent is that of O42, and the received byte is decoded from the state that
sending leaves. -/
theorem streamTaskTransmitsAndReceives : Obligations.StreamTaskTransmitsAndReceives := by
  intro s x txs rxs units h hl hk hp htx hrx hin
  obtain ⟨u, hu, h1⟩ := h.txSubStep_sends hl hp htx
  obtain ⟨v, hv, ht⟩ := h.task_of_unit hl h1 hrx hin (unitInContract_byte hk x)
  obtain ⟨c, y, hc, hrow, hy⟩ := encSteps_stream hk h.noOutput hu
  rw [decodedBytes, decBytes_singleton] at hv
  exact ⟨c, u, y, v, hc, hrow, hy, by simpa [State.afterSending, hk, hy, txUnits] using hv, ht⟩

/-- Settles O47: the unit sent is that of O43, and the bytes that pass the filter are decoded from
the state that sending leaves. -/
theorem messageTaskTransmitsAndReceives : Obligations.MessageTaskTransmitsAndReceives := by
  intro s id bs txs rxs units h hl hk hp hid hlen htx hrx hin
  obtain ⟨u, hu, h1⟩ := h.txSubStep_sends hl hp htx
  obtain ⟨v, hv, ht⟩ := h.task_of_unit hl h1 hrx hin (unitInContract_message hk hid hlen)
  obtain ⟨k, hunit, hcount⟩ := h.encSteps_message hl hk hu
  refine ⟨k, u, v, hunit.pos, hunit.le, hunit.run, hcount, hunit.stopped, hunit.pending, ?_, ht⟩
  simpa [State.afterSending, decodedBytes, hk, txUnits] using hv

/-! ## SEND and the receive sub-step -/

/-- `s` with what a SEND may change taken from `v`: the transmit side and the answers (R180). -/
def State.withSendOf (s v : State) : State := { s.withTxOf v with replies := v.replies }

/-- `s` with what the receive sub-step may change taken from `v` (R190). -/
def State.withReceiveOf (s v : State) : State :=
  { s with
    rxState := v.rxState
    rxSize := v.rxSize
    rxBuf := v.rxBuf
    statSof := v.statSof
    statRxFrames := v.statRxFrames
    rxReadyIn := v.rxReadyIn
    rxIn := v.rxIn
    draws := v.draws
    events := v.events }

section Answers
variable {s t : State} (rs : List Reply)

/-- FINALIZE does not see the answers given to the host. -/
theorem finalize_replies (h : finalize s = .next t) :
    finalize { s with replies := rs } = .next { t with replies := rs } := by
  unfold finalize at h
  split at h
  · rename_i hshort
    cases h
    exact finalize_short hshort
  · rename_i hlong
    obtain ⟨p, hp, h⟩ := andThen_eq_next.1 h
    obtain ⟨lo, hlo, h⟩ := andThen_eq_next.1 h
    obtain ⟨hi, hhi, h⟩ := andThen_eq_next.1 h
    have hread := readBytes_eq_next.1 hp
    have hp' : readBytes .rx 0 { s with replies := rs } (s.rxSize.toNat - 2) = .next p :=
      readBytes_eq_next.2 hread
    refine (if_neg hlong).trans (andThen_eq_next.2 ⟨p, hp', andThen_eq_next.2 ⟨lo, hlo,
      andThen_eq_next.2 ⟨hi, hhi, ?_⟩⟩⟩)
    split at h
    · rename_i hcrc
      cases h
      exact if_pos hcrc
    · rename_i hcrc
      cases h
      exact if_neg hcrc

theorem rxStore_replies {b : Byte} (h : rxStore b s = .next t) :
    rxStore b { s with replies := rs } = .next { t with replies := rs } := by
  obtain ⟨hlt, rfl⟩ := rxStore_eq_next.1 h
  exact rxStore_eq_next.2 ⟨hlt, rfl⟩

/-- No class of a received byte does. -/
theorem rxAct_replies {c : RxClass} {x : Byte} (h : rxAct c x s = .next t) :
    rxAct c x { s with replies := rs } = .next { t with replies := rs } := by
  cases c with
  | start | ignore | escape | overflow | full | badEscape => cases h; rfl
  | frameEnd =>
    obtain ⟨u, hu, ht⟩ := andThen_eq_next.1 h
    cases ht
    exact andThen_eq_next.2 ⟨_, finalize_replies rs hu, rfl⟩
  | data => exact rxStore_replies rs h
  | substDelim | substEsc =>
    obtain ⟨u, hu, ht⟩ := andThen_eq_next.1 h
    cases ht
    exact andThen_eq_next.2 ⟨_, rxStore_replies rs hu, rfl⟩

end Answers

section Commute
variable {s t : State} (v : State)

/-- DEC_BYTE sees nothing that a SEND changes (R162, R201). -/
theorem decByte_withSendOf {x : Byte} (h : decByte x s = .next t) :
    decByte x (s.withSendOf v) = .next (t.withSendOf v) := by
  have htx : decByte x (s.withTxOf v) = .next (t.withTxOf v) := by
    rw [(decoderIgnoresTransmitSide s v x).1, h, andThen_next]
  exact rxAct_replies v.replies htx

theorem decBytes_withSendOf {bs : List Byte} (h : decBytes bs s = .next t) :
    decBytes bs (s.withSendOf v) = .next (t.withSendOf v) := by
  induction bs generalizing s with
  | nil => cases h; rfl
  | cons x rest ih =>
    obtain ⟨u, hu, ht⟩ := andThen_eq_next.1 h
    exact andThen_eq_next.2 ⟨_, decByte_withSendOf v hu, ih ht⟩

/-- Nor do the calls of the receive sub-step. -/
theorem rxReady_withSendOf (s : State) :
    rxReady (s.withSendOf v) = ((rxReady s).1, (rxReady s).2.withSendOf v) := by
  cases hin : s.rxReadyIn with
  | nil | cons a rest => simp only [rxReady, State.withSendOf, State.withTxOf, hin, State.emit]

theorem rxRecv_withSendOf {r : LinkUnit × State} (h : rxRecv s = .next r) :
    rxRecv (s.withSendOf v) = .next (r.1, r.2.withSendOf v) := by
  have hin' : (s.withSendOf v).rxIn = s.rxIn := rfl
  unfold rxRecv at h ⊢
  rw [hin']
  split at h
  · rename_i u rest _
    have hc : unitInContract (s.withSendOf v) u = unitInContract s u := by cases u <;> rfl
    rw [hc]
    split at h
    · rename_i hok
      cases h
      exact if_pos hok
    · cases h
  · cases h
    rfl

/-- The receive sub-step sees nothing that a SEND changes. -/
theorem rxSubStep_withSendOf (h : rxSubStep s = .next t) :
    rxSubStep (s.withSendOf v) = .next (t.withSendOf v) := by
  have hquery := rxReady_withSendOf v s
  cases hq : (rxReady s).1 with
  | false =>
    rw [rxSubStep_of_not_ready hq] at h
    cases h
    rw [rxSubStep_of_not_ready (by rw [hquery]; exact hq), hquery]
  | true =>
    rw [rxSubStep_of_ready hq] at h
    obtain ⟨⟨u, s'⟩, hr, hdec⟩ := andThen_eq_next.1 h
    rw [rxSubStep_of_ready (by rw [hquery]; exact hq), hquery]
    refine andThen_eq_next.2 ⟨_, rxRecv_withSendOf v hr, ?_⟩
    cases u <;> exact decBytes_withSendOf v hdec

/-- TXBUF is written without the receive side (R136). -/
theorem writeBytes_tx_withReceiveOf {i : Nat} {vs : List Byte}
    (h : writeBytes .tx i vs s = .next t) :
    writeBytes .tx i vs (s.withReceiveOf v) = .next (t.withReceiveOf v) := by
  induction vs generalizing i s with
  | nil => cases h; rfl
  | cons b rest ih =>
    obtain ⟨u, hu, ht⟩ := andThen_eq_next.1 h
    obtain ⟨hlt, rfl⟩ := writeByte_eq_next.1 hu
    exact andThen_eq_next.2 ⟨_, writeByte_eq_next.2 ⟨hlt, rfl⟩, ih ht⟩

theorem loadPayload_withReceiveOf {linkId : LinkId} {p : List Byte}
    (h : loadPayload linkId p s = .next t) :
    loadPayload linkId p (s.withReceiveOf v) = .next (t.withReceiveOf v) := by
  obtain ⟨u, hu, ht⟩ := andThen_eq_next.1 h
  cases ht
  exact andThen_eq_next.2 ⟨_, writeBytes_tx_withReceiveOf v hu, rfl⟩

/-- SEND sees nothing that the receive sub-step changes. -/
theorem execSend_withReceiveOf {linkId : LinkId} {p : List Byte}
    (h : exec (.send linkId p) s = .next t) :
    exec (.send linkId p) (s.withReceiveOf v) = .next (t.withReceiveOf v) := by
  have hstatus : sendStatus (s.withReceiveOf v) p = sendStatus s p := rfl
  by_cases hok : sendStatus s p = .ok
  · rw [exec_send_of_status_ok hok] at h
    obtain ⟨u, hu, ht⟩ := andThen_eq_next.1 h
    cases ht
    rw [exec_send_of_status_ok (hstatus.trans hok), loadPayload_withReceiveOf v hu, andThen_next]
    rfl
  · rw [exec_send_of_status_ne_ok rfl hok] at h
    cases h
    exact exec_send_of_status_ne_ok hstatus hok

end Commute

/-- Settles O51: neither of the two sees what the other changes, so each can be run after the
other, and both orders put the same changes together. -/
theorem sendCommutesWithReceive : Obligations.SendCommutesWithReceive := by
  intro s s1 s2 linkId p h1 h2
  have hs1 : s1 = s.withSendOf s1 := by rw [execSend_frame h1]; rfl
  have hs2 : s2 = s.withReceiveOf s2 := by rw [rxSubStep_frame h2]; rfl
  have hsame : s1.withReceiveOf s2 = s2.withSendOf s1 := by rw [hs1, hs2]; rfl
  have hrx := rxSubStep_withSendOf s1 h2
  have hsend := execSend_withReceiveOf s2 h1
  rw [← hs1] at hrx
  rw [← hs2, hsame] at hsend
  exact ⟨_, hrx, hsend⟩

end Sys2Proof.Machine
end

section
/-! PROOFS. Scope: the control commands (spec/45). INIT on a valid and on an invalid configuration
(O18), READ_REG of an assigned and of a reserved number (O20), and the reserved opcodes (O21). -/

namespace Sys2Proof.Machine

open Sys2Proof

/-! ## INIT -/

section Init
variable {s : State} {n : Size} {kind : LinkKind} {chunk : Size}

/-- INIT of a valid configuration configures the core and answers OK (R220, R222). -/
theorem exec_init_of_valid (rxLink : LinkId) (hv : configValid s n kind chunk = true) :
    exec (.init n kind chunk rxLink) s
      = .next ((configured n kind chunk rxLink s).reply .ok 0) := if_pos hv

/-- INIT of an invalid configuration only answers BAD_CONFIG (R221). -/
theorem exec_init_of_not_valid (rxLink : LinkId) (hv : ¬configValid s n kind chunk = true) :
    exec (.init n kind chunk rxLink) s = .next (s.reply .badConfig 0) := if_neg hv

/-- What fails where a configuration is not valid (R221). -/
theorem not_configValid_iff : ¬configValid s n kind chunk = true
    ↔ n.toNat < 1 ∨ s.build.bufCap < n.toNat + 2 ∨ (kind = .message ∧ chunk.toNat < 1) := by
  rw [configValid_iff]
  simp only [not_and_or, Classical.not_imp, Nat.not_le]

end Init

/-- Settles O18: INIT tests `configValid` alone, whose two outcomes are the two clauses. -/
theorem initFollowsPseudocode : Obligations.InitFollowsPseudocode := by
  intro s n kind chunk rxLink
  refine ⟨fun hn hcap hchunk => ?_, fun hfails => ?_⟩
  · exact ⟨_, exec_init_of_valid rxLink (configValid_iff.2 ⟨hn, hcap, hchunk⟩), rfl⟩
  · exact exec_init_of_not_valid rxLink (not_configValid_iff.2 hfails)

/-! ## READ_REG -/

section ReadReg
variable {s : State} {reg : Byte}

/-- LIVE read as a number (R21, R37). -/
theorem liveCode_eq_ite (live : Bool) : liveCode live = if live = true then 1 else 0 := by
  cases live <;> rfl

/-- CFG_KIND read as a number (R23, R37). -/
theorem kindCode_eq_ite (kind : LinkKind) : kindCode kind = if kind = .message then 1 else 0 := by
  cases kind <;> rfl

/-- The numbers from 0x0E on are reserved (R37). -/
theorem regValue_of_reserved (s : State) (h : 0x0E ≤ reg.toNat) : regValue s reg = none := by
  unfold regValue
  -- An assigned number is below 0x0E, so only the last branch is left.
  split
  case h_15 => rfl
  all_goals omega

/-- READ_REG of an assigned number answers OK and the register (R224). -/
theorem exec_readReg_of_assigned {v : Nat} (h : regValue s reg = some v) :
    exec (.readReg reg) s = .next (s.reply .ok v) := by
  change execReadReg reg s = _
  rw [execReadReg, h]

/-- READ_REG of a reserved number answers BAD_REG (R224). -/
theorem exec_readReg_of_reserved (h : regValue s reg = none) :
    exec (.readReg reg) s = .next (s.reply .badReg 0) := by
  change execReadReg reg s = _
  rw [execReadReg, h]

end ReadReg

/-- Settles O20: each assigned number by its entry of `regValue`, LIVE and CFG_KIND by their codes;
the reserved numbers have no entry. -/
theorem readRegAnswersRegister : Obligations.ReadRegAnswersRegister := by
  intro s
  have hlive : regValue s 0x00#8 = some (if s.live = true then 1 else 0) :=
    congrArg some (liveCode_eq_ite s.live)
  have hkind : regValue s 0x02#8 = some (if s.cfgKind = .message then 1 else 0) :=
    congrArg some (kindCode_eq_ite s.cfgKind)
  have hanswers {reg : Byte} {v : Nat} (h : regValue s reg = some v) := exec_readReg_of_assigned h
  exact ⟨hanswers hlive, hanswers rfl, hanswers hkind, hanswers rfl, hanswers rfl, hanswers rfl,
    hanswers rfl, hanswers rfl, hanswers rfl, hanswers rfl, hanswers rfl, hanswers rfl,
    hanswers rfl, hanswers rfl,
    fun _ hreg => exec_readReg_of_reserved (regValue_of_reserved s hreg)⟩

/-! ## The reserved opcodes -/

/-- The reserved opcodes are those that are not assigned (R95, R98). -/
theorem not_assignedOpcode_of_reserved {op : Byte} (h : op = 0x00#8 ∨ 0x07 ≤ op.toNat) :
    assignedOpcode op = false := by
  refine decide_eq_false fun ⟨hlo, hhi⟩ => ?_
  obtain rfl | hseven := h
  · exact absurd hlo (by decide)
  · omega

/-- A command with a reserved opcode decodes to ILLEGAL_CMD: it has no operand to check (R98). -/
theorem decode_of_not_assigned {w : Nat} {c : Command} (h : assignedOpcode c.op = false) :
    decode w c = .ok (.illegalCmd c.op) :=
  decode_eq_ok.2 ⟨instr_of_not_assigned h, by simp [Instr.wellFormed, Instr.reject, h]⟩

/-- ILLEGAL_CMD only answers its status, in every state (R225). -/
theorem exec_illegalCmd (op : Byte) (s : State) :
    exec (.illegalCmd op) s = .next (s.reply .illegalCmd 0) := rfl

/-- Settles O21: the command decodes to ILLEGAL_CMD, whatever its operand fields. -/
theorem reservedOpcodeAnswersIllegalCmd : Obligations.ReservedOpcodeAnswersIllegalCmd := by
  refine ⟨fun s c rest hp hop => ?_, fun s op => exec_illegalCmd op s⟩
  rw [step_of_decode_ok hp (decode_of_not_assigned (not_assignedOpcode_of_reserved hop)),
    exec_illegalCmd]

end Sys2Proof.Machine
end

section
/-! PROOFS. Scope: power-on, INIT and TEARDOWN (spec/70). That no command but INIT leaves the
power-on state (O5), that these three leave both buffers unwritten (O6), and that TEARDOWN gives the
registers of the power-on state (O19). -/

namespace Sys2Proof.Machine

open Sys2Proof

/-! ## TEARDOWN and the core that is not live -/

/-- TEARDOWN clears the core and answers OK, in every state (R223). -/
theorem exec_teardown (s : State) : exec .teardown s = .next (s.cleared.reply .ok 0) := rfl

/-- On a core that is not live, every command but INIT and TEARDOWN only replies (R270, R274). -/
theorem exec_only_replies_of_not_live {s : State} (hl : s.live = false) {i : Instr}
    (hi : i.isCommand = true)
    (hinit : ∀ n kind chunk rxLink, i ≠ .init n kind chunk rxLink) (htd : i ≠ .teardown) :
    ∃ st v, exec i s = .next (s.reply st v) := by
  cases i with
  | init n kind chunk rxLink => exact absurd rfl (hinit n kind chunk rxLink)
  | teardown => exact absurd rfl htd
  | send linkId p =>
    exact ⟨_, _, exec_send_of_status_ne_ok (sendStatus_of_not_live hl) (by decide)⟩
  | task => exact ⟨_, _, taskRefusedWhileNotLive s hl⟩
  | crc16 data => exact ⟨_, _, exec_crc16 data s⟩
  | readReg reg =>
    cases hreg : regValue s reg with
    | some v => exact ⟨_, _, exec_readReg_of_assigned hreg⟩
    | none => exact ⟨_, _, exec_readReg_of_reserved hreg⟩
  | illegalCmd op => exact ⟨_, _, exec_illegalCmd op s⟩
  | _ => cases hi

/-- Settles O5: the power-on state is not live, so a command but INIT either only replies or is
TEARDOWN, which clears the core. -/
theorem powerOnState : Obligations.PowerOnState := by
  refine ⟨⟨rfl, rfl, rfl, rfl, rfl, rfl, rfl, rfl, rfl, rfl, rfl, rfl, rfl, rfl⟩,
    fun i t hi hinit h => ?_⟩
  by_cases htd : i = .teardown
  · subst htd
    cases (exec_teardown _).symm.trans h
    rfl
  · obtain ⟨st, v, hreply⟩ := exec_only_replies_of_not_live (s := .reset) rfl hi hinit htd
    cases hreply.symm.trans h
    rfl

/-- Settles O19: the cleared state has every register of the power-on state. -/
theorem teardownGivesPowerOnState : Obligations.TeardownGivesPowerOnState :=
  fun s => ⟨_, exec_teardown s, rfl⟩

/-! ## Unwritten buffers -/

/-- A read below BUF_CAP of a buffer that holds no byte faults (R273). -/
theorem readByte_unwritten {s : State} {b : Buffer} {i : Nat} (hi : i < s.build.bufCap)
    (hb : s.buffer b = []) : readByte b i s = .fault (.unwrittenByte b i) := by
  rw [readByte, if_pos hi, hb, Memory.read_nil]

@[simp] theorem buffer_reset (b : Buffer) : State.reset.buffer b = [] := by cases b <;> rfl

@[simp] theorem buffer_cleared (s : State) (b : Buffer) : s.cleared.buffer b = [] := by
  cases b <;> rfl

@[simp] theorem buffer_configured (n : Size) (kind : LinkKind) (chunk : Size) (rxLink : LinkId)
    (s : State) (b : Buffer) : (configured n kind chunk rxLink s).buffer b = [] := by
  cases b <;> rfl

@[simp] theorem buffer_reply (s : State) (b : Buffer) (st : Status) (v : Nat) :
    (s.reply st v).buffer b = s.buffer b := by
  cases b <;> rfl

/-- Settles O6: power-on, TEARDOWN and a valid INIT each leave both buffers empty and the build as
it was. -/
theorem unspecifiedBuffersAreUnwritten : Obligations.UnspecifiedBuffersAreUnwritten := by
  refine ⟨fun b i hi => ?_, fun s t b i hi h => ?_,
    fun s t n chunk kind rxLink b i hi hn hcap hchunk h => ?_⟩
  · exact readByte_unwritten hi (buffer_reset b)
  · cases (exec_teardown s).symm.trans h
    exact readByte_unwritten hi (by rw [buffer_reply, buffer_cleared])
  · cases (exec_init_of_valid rxLink (configValid_iff.2 ⟨hn, hcap, hchunk⟩)).symm.trans h
    exact readByte_unwritten hi (by rw [buffer_reply, buffer_configured])

end Sys2Proof.Machine
end
